-- ==== Sys2Proof/Word.lean ====
section
/-! DEFINITION. The two word types of the hardware (00_scope.md R6, R7): an 8-bit byte and a 16-bit word.
Arithmetic on them wraps (10_state.md R31); nothing is ever sign-extended. -/

namespace Sys2Proof

/-- A memory cell, a general register, an opcode or an 8-bit operand (00_scope.md R6). -/
abbrev Byte := BitVec 8

/-- An address, `PC`, `SP` or a 16-bit operand (00_scope.md R6). -/
abbrev Word := BitVec 16

end Sys2Proof
end

