-- ==== Sys2Proof/Machine/Bytes.lean ====
section
/-! DEFINITION. Bytes and words: the byte order (little-endian, 20_memory.md R56) and zero extension (00_scope.md R7). -/

namespace Sys2Proof.Machine

/-- `(hi << 8) | lo` (00_scope.md R7): the word whose bits 15..8 are `hi` and bits 7..0 are `lo`. -/
def wordOf (lo hi : Byte) : Word := hi ++ lo

/-- `w[7:0]`, the byte stored at the lower address (20_memory.md R56). -/
def lowByte (w : Word) : Byte := w.setWidth 8

/-- `w[15:8]`, the byte stored at the higher address (20_memory.md R56). -/
def highByte (w : Word) : Byte := (w >>> 8).setWidth 8

/-- `zext_16(b)` (00_scope.md R7). -/
def zext16 (b : Byte) : Word := b.setWidth 16

end Sys2Proof.Machine
end

