-- ==== Sys2Proof/Config.lean ====
section
/-! DEFINITION. What the hardware fixes (00_scope.md R6) and the parameter `PAGE_CROSS`. The free values of Config take a
whole state, so they stand in Machine/FreeValues.lean, after State. -/

namespace Sys2Proof

/-- The parameter `PAGE_CROSS` (40_primitives_addressing.md R117): which test decides the extra cycle of an indexed
access. -/
inductive PageCrossPolicy where
  /-- The high bytes of base and sum differ; the default. -/
  | truePage
  /-- The reference's approximation: `(sum - base) mod 2^16 >= 0xFF`. -/
  | refApprox
  deriving DecidableEq, Repr

/-- `CAP`, the memory capacity in bytes (00_scope.md R6, 20_memory.md R50). -/
def Config.cap : Nat := 65536

/-- `PC_RESET` (00_scope.md R6, 10_state.md R33). -/
def Config.pcReset : Word := 0xFFFC#16

/-- `SP_RESET` (00_scope.md R6, 10_state.md R33). -/
def Config.spReset : Word := 0x0100#16

/-- The default value of `PAGE_CROSS` (00_scope.md R6). -/
def Config.pageCrossDefault : PageCrossPolicy := .truePage

end Sys2Proof
end

