-- ==== Sys2Proof/Machine/State.lean ====
section
/-! DEFINITION. The state of one CPU+Memory pair (10_state.md R20), the two faults (60_exceptions.md R200), the
refusals, and the state after `Reset` (10_state.md R33). -/

namespace Sys2Proof.Machine

/-- The faults: exactly two kinds (60_exceptions.md R200). Both are fatal; `Step` ends in one of them or in a new state
(46_exec_loop.md R182). -/
inductive Fault where
  /-- Raised by the dispatcher: the byte `op` fetched at `addr` is no handled opcode (60_exceptions.md R201).
  Safe: the machine stops where the spec says it stops, and nothing is claimed of the state left. -/
  | unknownOpcode (op : Byte) (addr : Word)
  /-- Raised by JSR with `SP` = 0xFFFF, and reported to a host that pokes or peeks an address of 65536 or more
  (60_exceptions.md R202). Safe: as above. -/
  | outOfBounds (a : Nat)
  deriving DecidableEq, Repr

/-- The refusals: what has no meaning at all. -/
inductive Refusal where
  /-- Raised by an arm of `exec` whose instruction has no meaning yet; no arm raises it. Safe. -/
  | notModelled (mnemonic : String)
  /-- Raised by a step or an `Exec` on a pair that has never been reset (46_exec_loop.md R188). Safe: the spec gives
  such a call no meaning. -/
  | notReset
  /-- Raised by a host write of a value outside the register's or flag's width (10_state.md R32,
  93_implementation_defined.md U15). Safe: the spec allows no such write. -/
  | valueOutOfRange
  deriving DecidableEq, Repr

/-- The memory `M` (20_memory.md R50): the cells that do not hold 0x00, by rising address. An address that is not
listed reads 0x00, the value reset leaves in every cell (20_memory.md R53, 10_state.md R33). The operations are in
Machine/Memory.lean. -/
abbrev Memory := List Host.Cell

/-- The complete state of one pair (10_state.md R20). -/
structure State where
  /-- `PC` (10_state.md R22). -/
  pc : Word
  /-- `SP`, a full 16-bit address (10_state.md R23). -/
  sp : Word
  /-- `A` (10_state.md R21). -/
  a : Byte
  /-- `X` (10_state.md R21). -/
  x : Byte
  /-- `Y` (10_state.md R21). -/
  y : Byte
  /-- Carry (10_state.md R24). -/
  flagC : Bool
  /-- Zero (10_state.md R24). -/
  flagZ : Bool
  /-- Interrupt-Disable (10_state.md R24). -/
  flagI : Bool
  /-- Decimal (10_state.md R24). -/
  flagD : Bool
  /-- Break (10_state.md R24). -/
  flagB : Bool
  /-- Overflow (10_state.md R24). -/
  flagV : Bool
  /-- Negative (10_state.md R24). -/
  flagN : Bool
  /-- `M` (10_state.md R30, 20_memory.md R50). -/
  mem : Memory
  /-- `ready`: the pair has been reset (10_state.md R28). -/
  ready : Bool
  /-- The fault latch (10_state.md R27). -/
  fault : Option Fault
  /-- `cyc`, the remaining-cycle counter of the `Exec` call in progress, a signed integer (10_state.md R26).
  DESIGN CHOICE (log entry 3): 0 outside a call, where the spec says it does not exist. -/
  cyc : Int
  /-- The parameter `PAGE_CROSS` (40_primitives_addressing.md R117). It is no state of the spec: the state carries it
  because `exec` has no other argument, and nothing changes it. DESIGN CHOICE (log entry 4). -/
  pageCross : PageCrossPolicy
  /-- How many times contents left unspecified by the spec have been drawn from the free values (Machine/FreeValues.lean):
  the MODEL's own counter, no state of the spec. DESIGN CHOICE (log entry 2). -/
  free : Nat
  deriving DecidableEq, Repr

/-- The machine right after `Reset` (10_state.md R33, 70_reset_and_hazards.md R230). `cyc`, `pageCross` and `free` are
the model's (log entries 3, 4 and 2). -/
def State.reset : State where
  pc := Config.pcReset
  sp := Config.spReset
  a := 0#8
  x := 0#8
  y := 0#8
  flagC := false
  flagZ := false
  flagI := false
  flagD := false
  flagB := false
  flagV := false
  flagN := false
  mem := []
  ready := true
  fault := none
  cyc := 0
  pageCross := Config.pageCrossDefault
  free := 0

end Sys2Proof.Machine
end

