-- ==== Sys2Proof/Machine/Flags.lean ====
section
/-! DEFINITION. The one flag computation of the hardware: the load flags (40_primitives_addressing.md R106). No rule
computes any other flag (R119). -/

namespace Sys2Proof.Machine

/-- `v = 0`, the new `Z` after a load of `v` (40_primitives_addressing.md R106). -/
def zeroOf (v : Byte) : Bool := v == 0#8

/-- `v[7]`, the new `N` after a load of `v` (40_primitives_addressing.md R106). -/
def negativeOf (v : Byte) : Bool := v.getLsbD 7

/-- `SetLoadFlags(v)` (40_primitives_addressing.md R106): `Z` and `N` from the loaded value, no other flag. -/
def State.setLoadFlags (v : Byte) (s : State) : State :=
  { s with flagZ := zeroOf v, flagN := negativeOf v }

end Sys2Proof.Machine
end

