-- ==== Sys2Proof/Machine/FreeValues.lean ====
section
/-! DEFINITION. The free values (log entry 2): the contents the spec leaves unspecified after a fault (60_exceptions.md
R207) and before the first reset (10_state.md R28, R33). Each takes the whole state of the occasion, the count
`State.free` included, so that two occasions that differ in anything at all are not bound to leave the same contents. None
has a body, so nothing can be proved about which value it is. -/

namespace Sys2Proof

/-- FREE VALUE (log entry 2). What `PC` holds where the spec leaves it unspecified. -/
opaque Config.freePc : Machine.State → Word
/-- FREE VALUE (log entry 2). What `SP` holds where the spec leaves it unspecified. -/
opaque Config.freeSp : Machine.State → Word
/-- FREE VALUE (log entry 2). What `A` holds where the spec leaves it unspecified. -/
opaque Config.freeA : Machine.State → Byte
/-- FREE VALUE (log entry 2). What `X` holds where the spec leaves it unspecified. -/
opaque Config.freeX : Machine.State → Byte
/-- FREE VALUE (log entry 2). What `Y` holds where the spec leaves it unspecified. -/
opaque Config.freeY : Machine.State → Byte
/-- FREE VALUE (log entry 2). What the flag `C` holds where the spec leaves it unspecified. -/
opaque Config.freeFlagC : Machine.State → Bool
/-- FREE VALUE (log entry 2). What the flag `Z` holds where the spec leaves it unspecified. -/
opaque Config.freeFlagZ : Machine.State → Bool
/-- FREE VALUE (log entry 2). What the flag `I` holds where the spec leaves it unspecified. -/
opaque Config.freeFlagI : Machine.State → Bool
/-- FREE VALUE (log entry 2). What the flag `D` holds where the spec leaves it unspecified. -/
opaque Config.freeFlagD : Machine.State → Bool
/-- FREE VALUE (log entry 2). What the flag `B` holds where the spec leaves it unspecified. -/
opaque Config.freeFlagB : Machine.State → Bool
/-- FREE VALUE (log entry 2). What the flag `V` holds where the spec leaves it unspecified. -/
opaque Config.freeFlagV : Machine.State → Bool
/-- FREE VALUE (log entry 2). What the flag `N` holds where the spec leaves it unspecified. -/
opaque Config.freeFlagN : Machine.State → Bool
/-- FREE VALUE (log entry 2). What the memory cell at an address holds where the spec leaves memory unspecified. -/
opaque Config.freeCell : Machine.State → Nat → Byte
/-- FREE VALUE (log entry 2). What the fault latch holds before the first reset, where the spec leaves it unspecified
(10_state.md R28, R33). After a fault the latch is not free: it holds the fault (60_exceptions.md R207). -/
opaque Config.freeFault : Machine.State → Option Machine.Fault

end Sys2Proof
end

