-- ==== Sys2Proof/Machine/Memory.lean ====
section
/-! DEFINITION. The Memory component as a value (20_memory.md R50 to R53): reading and writing one cell, the zeroed
memory, and the canonical form of the list that holds it. Addresses are naturals here; the bounds check is
in Machine/Ops.lean. -/

namespace Sys2Proof.Machine

/-- The canonical form: addresses strictly rising, all below `CAP`, and no listed cell holds the value an unlisted one
reads as. -/
abbrev Memory.wf (m : Memory) : Prop :=
  m.Pairwise (fun c d => c.1 < d.1) ∧ ∀ c ∈ m, c.1 < Config.cap ∧ c.2 ≠ 0#8

/-- `M[a]`; an address that is not listed reads 0x00 (20_memory.md R53). -/
def Memory.read : Memory → Nat → Byte
  | [], _ => 0#8
  | c :: m, a => if c.1 = a then c.2 else Memory.read m a

/-- Puts a cell in its place by address, in a list that has none at that address. -/
def Memory.place (a : Nat) (v : Byte) : Memory → Memory
  | [] => [(a, v)]
  | c :: m => if a < c.1 then (a, v) :: c :: m else c :: Memory.place a v m

/-- Forgets what is listed at an address. -/
def Memory.forget (m : Memory) (a : Nat) : Memory := m.filter (fun c => !(c.1 == a))

/-- `M[a] <- v` (20_memory.md R52): one cell changes and nothing else. Writing 0x00 removes the entry. -/
def Memory.write (m : Memory) (a : Nat) (v : Byte) : Memory :=
  if v = 0#8 then m.forget a else (m.forget a).place a v

/-- `MemInit()`: every cell 0x00 (20_memory.md R53). -/
def Memory.zeroed : Memory := []

/-- The memory whose cell at each address `a` below `CAP` holds `f a`. Never evaluated: it only stands for memory whose
contents are free values. -/
@[irreducible] def Memory.ofCells (f : Nat → Byte) : Memory :=
  (List.range Config.cap).filterMap (fun a => if f a = 0#8 then none else some (a, f a))

end Sys2Proof.Machine
end

