-- ==== Sys2Proof/Machine/Ops.lean ====
section
/-! DEFINITION. The operations everything else is built from: registers, the cycle counter, the memory accesses with
their bounds check (20_memory.md R51 to R55), the CPU primitives (40_primitives_addressing.md R100 to R107), raising a
fault (60_exceptions.md R206, R207), `Reset` (70_reset_and_hazards.md R230) and construction (46_exec_loop.md R191). -/

namespace Sys2Proof.Machine

/-! ### Registers and the counter -/

/-- The three general registers (10_state.md R21). -/
inductive Reg where
  | a
  | x
  | y
  deriving DecidableEq, Repr

/-- `reg <- v` (40_primitives_addressing.md R118). -/
def State.setReg (r : Reg) (v : Byte) (s : State) : State :=
  match r with
  | .a => { s with a := v }
  | .x => { s with x := v }
  | .y => { s with y := v }

/-- `PC <- w`. -/
def State.setPc (w : Word) (s : State) : State := { s with pc := w }

/-- `SP <- w`. -/
def State.setSp (w : Word) (s : State) : State := { s with sp := w }

/-- `M <- m`. -/
def State.setMem (m : Memory) (s : State) : State := { s with mem := m }

/-- `Tick(n)`, and the debit of every primitive: `cyc <- cyc - n` (40_primitives_addressing.md R107). -/
def State.tick (n : Nat) (s : State) : State := { s with cyc := s.cyc - n }

/-- What fetching `n` bytes at `PC` does besides delivering them: `PC <- (PC + n) mod 2^16`, `cyc <- cyc - n`
(40_primitives_addressing.md R100, R101). -/
def State.fetched (n : Nat) (s : State) : State :=
  { s with pc := s.pc + BitVec.ofNat 16 n, cyc := s.cyc - n }

/-- `M[w]` for a 16-bit address: below `CAP`, so no check is needed (40_primitives_addressing.md R102). -/
def State.cell (s : State) (w : Word) : Byte := s.mem.read w.toNat

/-! ### Memory level: bounds-checked, no cycle cost -/

/-- `MemRead(a, 1)` (20_memory.md R51): it changes no state. -/
def memRead (a : Nat) (s : State) : Except Fault Byte :=
  if Config.cap ≤ a then .error (.outOfBounds a) else .ok (s.mem.read a)

/-- `MemWrite(a, 1, v)` (20_memory.md R52). -/
def memWrite (a : Nat) (v : Byte) (s : State) : Except Fault State :=
  if Config.cap ≤ a then .error (.outOfBounds a) else .ok (s.setMem (s.mem.write a v))

/-- `MemInit()` (20_memory.md R53). -/
def memInit (s : State) : State := s.setMem Memory.zeroed

/-- `MemWriteWord(a, w)` and the CPU's `WriteWord` (20_memory.md R54, 40_primitives_addressing.md R104): the bound of
the second byte is checked before either is written, `a + 1` is not reduced, low byte first, two cycles. -/
def writeWord (a w : Word) (s : State) : Except Fault State :=
  if Config.cap ≤ a.toNat + 1 then .error (.outOfBounds (a.toNat + 1))
  else .ok ((s.setMem ((s.mem.write a.toNat (lowByte w)).write (a.toNat + 1) (highByte w))).tick 2)

/-! ### CPU level: each debits the counter -/

/-- `FetchByte()` (40_primitives_addressing.md R100). -/
def fetchByte (s : State) : Byte × State := (s.cell s.pc, s.fetched 1)

/-- `FetchWord()` (40_primitives_addressing.md R101): the second byte's address wraps. -/
def fetchWord (s : State) : Word × State :=
  (wordOf (s.cell s.pc) (s.cell (s.pc + 1#16)), s.fetched 2)

/-- `ReadByte(a)` (40_primitives_addressing.md R102). -/
def readByte (a : Word) (s : State) : Byte × State := (s.cell a, s.tick 1)

/-- `ReadWord(a)` at the zero-page address `p`, the only addresses it is called with (40_primitives_addressing.md R103):
the high byte is at `p + 1`, which is 0x0100 for `p` = 0xFF. -/
def readWord (p : Byte) (s : State) : Word × State :=
  let r := readByte (zext16 p) s
  let t := readByte (zext16 p + 1#16) r.2
  (wordOf r.1 t.1, t.2)

/-- The opcode fetch that begins every instruction (46_exec_loop.md R182, 00_scope.md R10): `PC` advances by 1 and one
cycle is debited. The byte itself has been decoded. -/
def opcodeFetched (s : State) : State := s.fetched 1

/-! ### Faults, reset, construction -/

/-- Contents the spec leaves unspecified: every register, flag and cell takes a free value of this state (log entry 2),
and the count of such occasions advances (60_exceptions.md R207, 10_state.md R33). The latch, `ready` and the parameter
are for the caller to say. -/
def State.unspecified (s : State) : State :=
  { s with
    pc := Config.freePc s
    sp := Config.freeSp s
    a := Config.freeA s
    x := Config.freeX s
    y := Config.freeY s
    flagC := Config.freeFlagC s
    flagZ := Config.freeFlagZ s
    flagI := Config.freeFlagI s
    flagD := Config.freeFlagD s
    flagB := Config.freeFlagB s
    flagV := Config.freeFlagV s
    flagN := Config.freeFlagN s
    mem := Memory.ofCells (Config.freeCell s)
    free := s.free + 1 }

/-- `raise F(info)` (60_exceptions.md R206): the latch is set; the call ends, so the counter is gone; everything else is
unspecified (R207). No vector, no saved register, no push, no mode. -/
def State.raise (f : Fault) (s : State) : State :=
  { s.unspecified with fault := some f, cyc := 0 }

/-- `Reset()` (70_reset_and_hazards.md R230): the state of 10_state.md R33, whatever the state before. The parameter
stays what it is, and the free values used so far stay used. It is also the only way out of a fault (60_exceptions.md
R208). -/
def State.resetOp (s : State) : State :=
  { State.reset with pageCross := s.pageCross, free := s.free }

/-- What the free values of the k-th construction are drawn from: a state that only tells constructions apart, by the
parameter and by `k`. -/
def State.construction (policy : PageCrossPolicy) (k : Nat) : State :=
  { State.reset with ready := false, pageCross := policy, free := k }

/-- A constructed pair that has never been reset (46_exec_loop.md R191, 10_state.md R28, R33, 70_reset_and_hazards.md
R232): `ready` is 0 and every other element is unspecified. DESIGN CHOICE (log entry 2): every register, flag and cell, and
THE FAULT LATCH TOO, holds a free value; the spec gives the latch no value before the first reset, and the model picks none
for it. -/
def State.constructed (policy : PageCrossPolicy) (k : Nat) : State :=
  { (State.construction policy k).unspecified with fault := Config.freeFault (State.construction policy k) }

end Sys2Proof.Machine
end

