-- ==== Sys2Proof/Machine/Operands.lean ====
section
/-! DEFINITION. The operand forms: the nine addressing modes (40_primitives_addressing.md R108 to R116), the page-cross
test (R117) and the load template (R118). An address form answers the effective address and the state in which the
operand's bytes are fetched and the address cycles debited; the operand itself comes decoded with the instruction, and
is the value the rule's FetchByte or FetchWord delivers (log entry 6). -/

namespace Sys2Proof.Machine

/-- `PageCross(base, sum)` under a policy (40_primitives_addressing.md R117). -/
def pageCross (policy : PageCrossPolicy) (base sum : Word) : Bool :=
  match policy with
  | .truePage => !(highByte base == highByte sum)
  | .refApprox => decide (0xFF ≤ (sum - base).toNat)

/-- `if PageCross(base, sum) then Tick(1)` (40_primitives_addressing.md R113, R116). -/
def tickIfCross (base sum : Word) (s : State) : State :=
  if pageCross s.pageCross base sum then s.tick 1 else s

/-- The operand byte of format F1, fetched (40_primitives_addressing.md R100). -/
def operandByte (b : Byte) (s : State) : Byte × State := (b, s.fetched 1)

/-- The operand word of format F2, fetched (40_primitives_addressing.md R101). -/
def operandWord (w : Word) (s : State) : Word × State := (w, s.fetched 2)

/-- Immediate (40_primitives_addressing.md R108): the operand is the data. -/
def immediate (b : Byte) (s : State) : Byte × State := operandByte b s

/-- Zero Page (40_primitives_addressing.md R109). -/
def zeroPage (b : Byte) (s : State) : Word × State :=
  let r := operandByte b s
  (zext16 r.1, r.2)

/-- A zero-page address with an index added modulo 2^8, one cycle always (40_primitives_addressing.md R110, R111). -/
def zeroPageIndexed (b index : Byte) (s : State) : Word × State :=
  let r := operandByte b s
  (zext16 (r.1 + index), r.2.tick 1)

/-- Zero Page,X (40_primitives_addressing.md R110). -/
def zeroPageX (b : Byte) (s : State) : Word × State := zeroPageIndexed b s.x s

/-- Zero Page,Y (40_primitives_addressing.md R111). -/
def zeroPageY (b : Byte) (s : State) : Word × State := zeroPageIndexed b s.y s

/-- Absolute (40_primitives_addressing.md R112). -/
def absolute (w : Word) (s : State) : Word × State := operandWord w s

/-- A base with an index added modulo 2^16, one cycle when a page is crossed (40_primitives_addressing.md R113, R114,
R116). -/
def indexed (base : Word) (index : Byte) (s : State) : Word × State :=
  let sum := base + zext16 index
  (sum, tickIfCross base sum s)

/-- Absolute,X (40_primitives_addressing.md R113). -/
def absoluteX (w : Word) (s : State) : Word × State :=
  let r := operandWord w s
  indexed r.1 s.x r.2

/-- Absolute,Y (40_primitives_addressing.md R114). -/
def absoluteY (w : Word) (s : State) : Word × State :=
  let r := operandWord w s
  indexed r.1 s.y r.2

/-- Indirect,X (40_primitives_addressing.md R115): the index is added to the pointer's address, modulo 2^8, at one
cycle always; no page-cross cycle. -/
def indirectX (b : Byte) (s : State) : Word × State :=
  let r := operandByte b s
  readWord (r.1 + s.x) (r.2.tick 1)

/-- Indirect,Y (40_primitives_addressing.md R116): the index is added to the pointer read from the zero page. -/
def indirectY (b : Byte) (s : State) : Word × State :=
  let r := operandByte b s
  let p := readWord r.1 r.2
  indexed p.1 s.y p.2

/-- The end of every load (40_primitives_addressing.md R118): the register and the load flags. -/
def load (r : Reg) (v : Byte) (s : State) : State := (s.setReg r v).setLoadFlags v

/-- A load of the data an immediate operand gives (40_primitives_addressing.md R118). -/
def loadImmediate (r : Reg) (p : Byte × State) : State := load r p.1 p.2

/-- A load of the byte at an effective address (40_primitives_addressing.md R118). -/
def loadFrom (r : Reg) (p : Word × State) : State :=
  let d := readByte p.1 p.2
  load r d.1 d.2

end Sys2Proof.Machine
end

