-- ==== Sys2Proof/Machine/Jsr.lean ====
section
/-! DEFINITION. JSR (45_jsr.md), the only transfer of control and the only instruction that writes memory. -/

namespace Sys2Proof.Machine

/-- The effect of JSR once its opcode and operand are fetched (45_jsr.md R170): the address of the instruction's last
byte is written at `SP`, `SP` advances by 2, `PC` takes the target. -/
def jump (target : Word) (s : State) : Except Fault State :=
  match writeWord s.sp (s.pc - 1#16) s with
  | .error f => .error f
  | .ok t => .ok (((t.setSp (t.sp + 2#16)).setPc target).tick 1)

/-- JSR (45_jsr.md R170); with `SP` = 0xFFFF it raises OutOfBounds(0x10000) and writes nothing (R171). -/
def execJsr (w : Word) (s : State) : Host.Outcome State Fault Refusal :=
  let r := operandWord w (opcodeFetched s)
  match jump r.1 r.2 with
  | .error f => .fault f
  | .ok t => .next t

end Sys2Proof.Machine
end

