-- ==== Sys2Proof/Machine/Lda.lean ====
section
/-! DEFINITION. LDA, load accumulator (42_lda.md): each is the opcode fetch, the mode's operand, and the load template
(40_primitives_addressing.md R118). -/

namespace Sys2Proof.Machine

/-- LDA_IM, immediate (42_lda.md R140). -/
def execLdaIm (b : Byte) (s : State) : Host.Outcome State Fault Refusal :=
  .next (loadImmediate .a (immediate b (opcodeFetched s)))

/-- LDA_ZP, from zero page (42_lda.md R141). -/
def execLdaZp (b : Byte) (s : State) : Host.Outcome State Fault Refusal :=
  .next (loadFrom .a (zeroPage b (opcodeFetched s)))

/-- LDA_ZPX, from zero page indexed by X (42_lda.md R142). -/
def execLdaZpx (b : Byte) (s : State) : Host.Outcome State Fault Refusal :=
  .next (loadFrom .a (zeroPageX b (opcodeFetched s)))

/-- LDA_ABS, absolute (42_lda.md R143). -/
def execLdaAbs (w : Word) (s : State) : Host.Outcome State Fault Refusal :=
  .next (loadFrom .a (absolute w (opcodeFetched s)))

/-- LDA_ABSX, absolute indexed by X (42_lda.md R144). -/
def execLdaAbsx (w : Word) (s : State) : Host.Outcome State Fault Refusal :=
  .next (loadFrom .a (absoluteX w (opcodeFetched s)))

/-- LDA_ABSY, absolute indexed by Y (42_lda.md R145). -/
def execLdaAbsy (w : Word) (s : State) : Host.Outcome State Fault Refusal :=
  .next (loadFrom .a (absoluteY w (opcodeFetched s)))

/-- LDA_INDX, indexed indirect (42_lda.md R146). -/
def execLdaIndx (b : Byte) (s : State) : Host.Outcome State Fault Refusal :=
  .next (loadFrom .a (indirectX b (opcodeFetched s)))

/-- LDA_INDY, indirect indexed (42_lda.md R147). -/
def execLdaIndy (b : Byte) (s : State) : Host.Outcome State Fault Refusal :=
  .next (loadFrom .a (indirectY b (opcodeFetched s)))

end Sys2Proof.Machine
end

