-- ==== Sys2Proof/Machine/Ldx.lean ====
section
/-! DEFINITION. LDX, load X register (43_ldx.md): each is the opcode fetch, the mode's operand, and the load template
(40_primitives_addressing.md R118). -/

namespace Sys2Proof.Machine

/-- LDX_IM, immediate (43_ldx.md R150). -/
def execLdxIm (b : Byte) (s : State) : Host.Outcome State Fault Refusal :=
  .next (loadImmediate .x (immediate b (opcodeFetched s)))

/-- LDX_ZP, from zero page (43_ldx.md R151). -/
def execLdxZp (b : Byte) (s : State) : Host.Outcome State Fault Refusal :=
  .next (loadFrom .x (zeroPage b (opcodeFetched s)))

/-- LDX_ZPY, from zero page indexed by Y (43_ldx.md R152). -/
def execLdxZpy (b : Byte) (s : State) : Host.Outcome State Fault Refusal :=
  .next (loadFrom .x (zeroPageY b (opcodeFetched s)))

/-- LDX_ABS, absolute (43_ldx.md R153). -/
def execLdxAbs (w : Word) (s : State) : Host.Outcome State Fault Refusal :=
  .next (loadFrom .x (absolute w (opcodeFetched s)))

/-- LDX_ABSY, absolute indexed by Y (43_ldx.md R154). -/
def execLdxAbsy (w : Word) (s : State) : Host.Outcome State Fault Refusal :=
  .next (loadFrom .x (absoluteY w (opcodeFetched s)))

end Sys2Proof.Machine
end

