-- ==== Sys2Proof/Machine/Ldy.lean ====
section
/-! DEFINITION. LDY, load Y register (44_ldy.md): each is the opcode fetch, the mode's operand, and the load template
(40_primitives_addressing.md R118). -/

namespace Sys2Proof.Machine

/-- LDY_IM, immediate (44_ldy.md R160). -/
def execLdyIm (b : Byte) (s : State) : Host.Outcome State Fault Refusal :=
  .next (loadImmediate .y (immediate b (opcodeFetched s)))

/-- LDY_ZP, from zero page (44_ldy.md R161). -/
def execLdyZp (b : Byte) (s : State) : Host.Outcome State Fault Refusal :=
  .next (loadFrom .y (zeroPage b (opcodeFetched s)))

/-- LDY_ZPX, from zero page indexed by X (44_ldy.md R162). -/
def execLdyZpx (b : Byte) (s : State) : Host.Outcome State Fault Refusal :=
  .next (loadFrom .y (zeroPageX b (opcodeFetched s)))

/-- LDY_ABS, absolute (44_ldy.md R163). -/
def execLdyAbs (w : Word) (s : State) : Host.Outcome State Fault Refusal :=
  .next (loadFrom .y (absolute w (opcodeFetched s)))

/-- LDY_ABSX, absolute indexed by X (44_ldy.md R164). -/
def execLdyAbsx (w : Word) (s : State) : Host.Outcome State Fault Refusal :=
  .next (loadFrom .y (absoluteX w (opcodeFetched s)))

end Sys2Proof.Machine
end

