-- ==== Sys2Proof/Machine/Nop.lean ====
section
/-! DEFINITION. NOP (41_nop.md). -/

namespace Sys2Proof.Machine

/-- NOP (41_nop.md R130): one cycle beyond the opcode fetch, nothing else. -/
def execNop (s : State) : Host.Outcome State Fault Refusal :=
  .next ((opcodeFetched s).tick 1)

end Sys2Proof.Machine
end

