-- ==== Sys2Proof/Syntax.lean ====
section
/-! DEFINITION. The instruction set: one constructor for each of the twenty rows of 30_encoding.md R84
(spec/opcode_table.json), with the operand of its format (R81): none in F0, the byte `b` in F1, the 16-bit value
`w` in F2. -/

namespace Sys2Proof

/-- The twenty instructions (30_encoding.md R84). The mode abbreviations are those of 00_scope.md R12. -/
inductive Instr where
  /-- NOP 0xEA (41_nop.md R130). -/
  | nop
  /-- LDA_IM 0xA9 (42_lda.md R140). -/
  | ldaIm (b : Byte)
  /-- LDA_ZP 0xA5 (42_lda.md R141). -/
  | ldaZp (b : Byte)
  /-- LDA_ZPX 0xB5 (42_lda.md R142). -/
  | ldaZpx (b : Byte)
  /-- LDA_ABS 0xAD (42_lda.md R143). -/
  | ldaAbs (w : Word)
  /-- LDA_ABSX 0xBD (42_lda.md R144). -/
  | ldaAbsx (w : Word)
  /-- LDA_ABSY 0xB9 (42_lda.md R145). -/
  | ldaAbsy (w : Word)
  /-- LDA_INDX 0xA1 (42_lda.md R146). -/
  | ldaIndx (b : Byte)
  /-- LDA_INDY 0xB1 (42_lda.md R147). -/
  | ldaIndy (b : Byte)
  /-- LDX_IM 0xA2 (43_ldx.md R150). -/
  | ldxIm (b : Byte)
  /-- LDX_ZP 0xA6 (43_ldx.md R151). -/
  | ldxZp (b : Byte)
  /-- LDX_ZPY 0xB6 (43_ldx.md R152). -/
  | ldxZpy (b : Byte)
  /-- LDX_ABS 0xAE (43_ldx.md R153). -/
  | ldxAbs (w : Word)
  /-- LDX_ABSY 0xBE (43_ldx.md R154). -/
  | ldxAbsy (w : Word)
  /-- LDY_IM 0xA0 (44_ldy.md R160). -/
  | ldyIm (b : Byte)
  /-- LDY_ZP 0xA4 (44_ldy.md R161). -/
  | ldyZp (b : Byte)
  /-- LDY_ZPX 0xB4 (44_ldy.md R162). -/
  | ldyZpx (b : Byte)
  /-- LDY_ABS 0xAC (44_ldy.md R163). -/
  | ldyAbs (w : Word)
  /-- LDY_ABSX 0xBC (44_ldy.md R164). -/
  | ldyAbsx (w : Word)
  /-- JSR 0x20 (45_jsr.md R170). -/
  | jsr (w : Word)
  deriving DecidableEq, Repr

end Sys2Proof
end

