-- ==== Sys2Proof/Decode.lean ====
section
/-! DEFINITION. The opcode table (30_encoding.md R84), the decoder and the encoder. The whole opcode byte selects the
row (R80, R183); the row's format says how many operand bytes follow (R81) and which instruction they make (R82).
Decoding depends on no state (R88). -/

namespace Sys2Proof

/-- A row's format (30_encoding.md R81) with the instruction it makes of its operand. -/
inductive Form where
  /-- One byte: the opcode alone. -/
  | f0 (i : Instr)
  /-- Two bytes: the opcode and the operand `b`. -/
  | f1 (make : Byte → Instr)
  /-- Three bytes: the opcode, the low byte and the high byte of the operand `w`. -/
  | f2 (make : Word → Instr)

/-- The length of an instruction of the format, in bytes (30_encoding.md R81, R83). -/
def Form.length : Form → Nat
  | .f0 _ => 1
  | .f1 _ => 2
  | .f2 _ => 3

/-- The instruction of the format whose two following bytes are `b1` and `b2`; a format uses as many of them as it has
operand bytes (30_encoding.md R82). -/
def Form.fill (b1 b2 : Byte) : Form → Instr
  | .f0 i => i
  | .f1 make => make b1
  | .f2 make => make (Machine.wordOf b1 b2)

/-- The twenty rows of 30_encoding.md R84, in its order. -/
def opcodeTable : List (Byte × Form) :=
  [ (0x20#8, .f2 .jsr),
    (0xA0#8, .f1 .ldyIm),
    (0xA1#8, .f1 .ldaIndx),
    (0xA2#8, .f1 .ldxIm),
    (0xA4#8, .f1 .ldyZp),
    (0xA5#8, .f1 .ldaZp),
    (0xA6#8, .f1 .ldxZp),
    (0xA9#8, .f1 .ldaIm),
    (0xAC#8, .f2 .ldyAbs),
    (0xAD#8, .f2 .ldaAbs),
    (0xAE#8, .f2 .ldxAbs),
    (0xB1#8, .f1 .ldaIndy),
    (0xB4#8, .f1 .ldyZpx),
    (0xB5#8, .f1 .ldaZpx),
    (0xB6#8, .f1 .ldxZpy),
    (0xB9#8, .f2 .ldaAbsy),
    (0xBC#8, .f2 .ldyAbsx),
    (0xBD#8, .f2 .ldaAbsx),
    (0xBE#8, .f2 .ldxAbsy),
    (0xEA#8, .f0 .nop) ]

/-- The first row whose opcode is `op`. -/
def findRow (op : Byte) : List (Byte × Form) → Option Form
  | [] => none
  | row :: rows => if row.1 = op then some row.2 else findRow op rows

/-- The row of the opcode byte `op`, or none where it is unhandled (30_encoding.md R86, 46_exec_loop.md R183). -/
def formOf (op : Byte) : Option Form := findRow op opcodeTable

/-- The instruction that the opcode byte `op` and the two bytes after it make; none where `op` is unhandled. A format
with fewer operand bytes leaves the later bytes unread (30_encoding.md R81). -/
def decodeOpcode (op b1 b2 : Byte) : Option Instr := (formOf op).map (Form.fill b1 b2)

/-- Why a list of bytes does not begin with an instruction. -/
inductive DecodeError where
  /-- The opcode byte is none of the twenty (30_encoding.md R86). -/
  | unknownOpcode (op : Byte)
  /-- The list ends before the instruction does: it is empty, or an operand byte is missing. -/
  | truncated
  deriving DecidableEq, Repr

/-- The instruction at the head of a list of bytes, with the bytes after it (30_encoding.md R80 to R83). -/
def decode : List Byte → Except DecodeError (Instr × List Byte)
  | [] => .error .truncated
  | op :: rest =>
    match formOf op with
    | none => .error (.unknownOpcode op)
    | some (.f0 i) => .ok (i, rest)
    | some (.f1 make) =>
      match rest with
      | b :: rest' => .ok (make b, rest')
      | [] => .error .truncated
    | some (.f2 make) =>
      match rest with
      | lo :: hi :: rest' => .ok (make (Machine.wordOf lo hi), rest')
      | _ => .error .truncated

/-- The bytes of the format F1 (30_encoding.md R81). -/
def encodeF1 (op b : Byte) : List Byte := [op, b]

/-- The bytes of the format F2, low operand byte first (30_encoding.md R81, 20_memory.md R56). -/
def encodeF2 (op : Byte) (w : Word) : List Byte := [op, Machine.lowByte w, Machine.highByte w]

/-- The bytes of an instruction, lowest address first, from the encoding each instruction's own rule gives
(41_nop.md R130 to 45_jsr.md R170). -/
def encode : Instr → List Byte
  | .nop => [0xEA#8]
  | .ldaIm b => encodeF1 0xA9#8 b
  | .ldaZp b => encodeF1 0xA5#8 b
  | .ldaZpx b => encodeF1 0xB5#8 b
  | .ldaAbs w => encodeF2 0xAD#8 w
  | .ldaAbsx w => encodeF2 0xBD#8 w
  | .ldaAbsy w => encodeF2 0xB9#8 w
  | .ldaIndx b => encodeF1 0xA1#8 b
  | .ldaIndy b => encodeF1 0xB1#8 b
  | .ldxIm b => encodeF1 0xA2#8 b
  | .ldxZp b => encodeF1 0xA6#8 b
  | .ldxZpy b => encodeF1 0xB6#8 b
  | .ldxAbs w => encodeF2 0xAE#8 w
  | .ldxAbsy w => encodeF2 0xBE#8 w
  | .ldyIm b => encodeF1 0xA0#8 b
  | .ldyZp b => encodeF1 0xA4#8 b
  | .ldyZpx b => encodeF1 0xB4#8 b
  | .ldyAbs w => encodeF2 0xAC#8 w
  | .ldyAbsx w => encodeF2 0xBC#8 w
  | .jsr w => encodeF2 0x20#8 w

/-- The three bytes of an instruction word as spec/opcode_table.json numbers its bits: bit 0 is the least significant
bit of the first byte, the second byte is bits 15..8, the third bits 23..16; every bit from `nbits` up is 0. -/
def tableBytes (nbits w : Nat) : List Byte :=
  let v := w % 2 ^ nbits
  [BitVec.ofNat 8 v, BitVec.ofNat 8 (v / 256), BitVec.ofNat 8 (v / 65536)]

/-- The instruction the decoder reads from a word of spec/opcode_table.json. -/
def decodeTableWord (nbits w : Nat) : Option Instr :=
  match decode (tableBytes nbits w) with
  | .ok (i, _) => some i
  | .error _ => none

end Sys2Proof
end

