-- ==== Sys2Proof/Machine/Fetch.lean ====
section
/-! DEFINITION. What `Step` finds at `PC` (46_exec_loop.md R182): the opcode byte and the bytes after it, at consecutive
addresses modulo 2^16 (30_encoding.md R80, 10_state.md R22), and the instruction they are; and putting an instruction's
bytes there. -/

namespace Sys2Proof.Machine

/-- The opcode byte: the byte at the address in `PC`. -/
def State.opcode (s : State) : Byte := s.cell s.pc

/-- The three bytes from `PC` on, as many as the longest instruction has. -/
def State.code (s : State) : List Byte :=
  [s.opcode, s.cell (s.pc + 1#16), s.cell (s.pc + 2#16)]

/-- The instruction at `PC`; none where the opcode is unhandled. -/
def State.instr (s : State) : Option Instr :=
  decodeOpcode s.opcode (s.cell (s.pc + 1#16)) (s.cell (s.pc + 2#16))

/-- Puts bytes at consecutive addresses from `w` on, modulo 2^16. -/
def placeBytes (w : Word) : List Byte → Memory → Memory
  | [], m => m
  | v :: vs, m => placeBytes (w + 1#16) vs (m.write w.toNat v)

end Sys2Proof.Machine
end

