-- ==== Sys2Proof/Machine/ExecLoop.lean ====
section
/-! DEFINITION. `Step` and the `Exec(n)` call (46_exec_loop.md R180 to R190): the loop runs whole instructions while the
remaining-cycle counter is positive. -/

namespace Sys2Proof.Machine

/-- `Step()` (46_exec_loop.md R182): one instruction, or UnknownOpcode with the byte and the address it was fetched
from (60_exceptions.md R201). It ends in a new state or in a fault. -/
def stepInstr (s : State) : Host.Outcome State Fault Refusal :=
  match s.instr with
  | some i => exec i s
  | none => .fault (.unknownOpcode s.opcode s.pc)

/-- One step of a pair: a pair that has never been reset is refused, a faulted one returns its fault again and fetches
nothing (46_exec_loop.md R188), any other runs `Step()`. -/
def stepPair (s : State) : Host.Outcome State Fault Refusal :=
  match s.ready, s.fault with
  | false, _ => .refused .notReset
  | true, some f => .fault f
  | true, none => stepInstr s

/-- `while cyc > 0: Step()` (46_exec_loop.md R181), at most `k` times. Every instruction debits the counter, so `cyc`
times are enough (log entry 7). -/
def loopWhile : Nat → State → Host.Outcome State Fault Refusal
  | 0, s => .next s
  | k + 1, s =>
    if 0 < s.cyc then
      match stepPair s with
      | .next t => loopWhile k t
      | .fault f => .fault f
      | .refused r => .refused r
    else .next s

/-- The loop from a state on: as many steps as the counter can pay for. -/
def runLoop (s : State) : Host.Outcome State Fault Refusal := loopWhile s.cyc.toNat s

/-- What an `Exec` call answers the host (46_exec_loop.md R180, R188). -/
inductive ExecResult where
  /-- `Ok(cycles_used)`. -/
  | ok (cyclesUsed : Int)
  /-- `Fault(f)`. -/
  | faulted (f : Fault)
  /-- The call has no meaning (46_exec_loop.md R188). -/
  | refused (r : Refusal)
  deriving DecidableEq, Repr

/-- The counter as a call sets it: `cyc <- n` at the start of `Exec(n)` (46_exec_loop.md R181), and 0 once the call is
over and the counter is discarded (10_state.md R26; log entry 3). -/
def State.setCyc (n : Int) (s : State) : State := { s with cyc := n }

/-- How a call of `n` cycles that began in `s` ends once its loop has (46_exec_loop.md R181, R190): with `Ok(n - cyc)`,
or with the fault, in the latched and otherwise unspecified state (60_exceptions.md R206, R207). What is unspecified is drawn
from the state the call began in and its `n`: together they determine all that the call did (R193; log entry 2). -/
def endCall (n : Int) (s : State) : Host.Outcome State Fault Refusal → ExecResult × State
  | .next t => (.ok (n - t.cyc), t.setCyc 0)
  | .fault f => (.faulted f, (s.setCyc n).raise f)
  | .refused r => (.refused r, s)

/-- `Exec(n)` (46_exec_loop.md R181): the result and the state it leaves. On a pair that is not runnable it does nothing
(R188). -/
def runExec (n : Int) (s : State) : ExecResult × State :=
  match s.ready, s.fault with
  | false, _ => (.refused .notReset, s)
  | true, some f => (.faulted f, s)
  | true, none => endCall n s (runLoop (s.setCyc n))

end Sys2Proof.Machine
end

