-- ==== Sys2Proof/Machine/Step.lean ====
section
/-! DEFINITION. The machine's step, one whole instruction (46_exec_loop.md R182: "A model may take `Step` as its single
transition"), and the placing of an instruction where the step fetches it. -/

namespace Sys2Proof.Machine

/-- One step (46_exec_loop.md R182, R188). -/
def step (s : State) : Host.Outcome State Fault Refusal := stepPair s

/-- The state with an instruction word of spec/opcode_table.json stored at `PC`, so that the next step runs it: the
bytes as the host pokes them (20_memory.md R55), on a pair that is runnable (46_exec_loop.md R188). Log entry 8. -/
def State.withFetchWord (s : State) (nbits w : Nat) : State :=
  { s with
    mem := placeBytes s.pc (tableBytes nbits w) s.mem
    ready := true
    fault := none }

end Sys2Proof.Machine
end

