-- ==== Sys2Proof/Machine/HostOps.lean ====
section
/-! DEFINITION. What the host can do between calls (46_exec_loop.md R191, 10_state.md R32, 20_memory.md R55), beside
constructing a pair (`State.constructed`). Nothing here writes `cyc`, `ready` or the latch by itself. -/

namespace Sys2Proof.Machine

/-- The registers the host reads and writes by name (10_state.md R32). -/
inductive RegName where
  | pc
  | sp
  | a
  | x
  | y
  deriving DecidableEq, Repr

/-- The flags the host reads and writes by name (10_state.md R24, R32). -/
inductive FlagName where
  | c
  | z
  | i
  | d
  | b
  | v
  | n
  deriving DecidableEq, Repr

/-- The host's operations (46_exec_loop.md R191). -/
inductive HostOp where
  | reset
  | poke (a : Nat) (v : Byte)
  | peek (a : Nat)
  | writeReg (r : RegName) (v : Nat)
  | readReg (r : RegName)
  | writeFlag (f : FlagName) (v : Nat)
  | readFlag (f : FlagName)
  | memInit
  | exec (n : Int)
  deriving DecidableEq, Repr

/-- What the host gets (46_exec_loop.md R191). -/
inductive HostReply where
  /-- Nothing. -/
  | done
  /-- The value of a cell, a register or a flag. -/
  | value (v : Nat)
  /-- A poke or peek out of bounds; the latch is not set (60_exceptions.md R206). -/
  | fault (f : Fault)
  /-- A write of a value out of range (93_implementation_defined.md U15). -/
  | refused (r : Refusal)
  /-- What `Exec` returns. -/
  | exec (r : ExecResult)
  deriving DecidableEq, Repr

/-- How many values the register has (00_scope.md R6). -/
def RegName.size : RegName → Nat
  | .pc => 65536
  | .sp => 65536
  | .a => 256
  | .x => 256
  | .y => 256

/-- The register's value. -/
def State.getRegName (s : State) : RegName → Nat
  | .pc => s.pc.toNat
  | .sp => s.sp.toNat
  | .a => s.a.toNat
  | .x => s.x.toNat
  | .y => s.y.toNat

/-- The state with an in-range value in the register. -/
def State.setRegName (s : State) (r : RegName) (v : Nat) : State :=
  match r with
  | .pc => s.setPc (BitVec.ofNat 16 v)
  | .sp => s.setSp (BitVec.ofNat 16 v)
  | .a => s.setReg .a (BitVec.ofNat 8 v)
  | .x => s.setReg .x (BitVec.ofNat 8 v)
  | .y => s.setReg .y (BitVec.ofNat 8 v)

/-- The flag's bit. -/
def State.getFlag (s : State) : FlagName → Bool
  | .c => s.flagC
  | .z => s.flagZ
  | .i => s.flagI
  | .d => s.flagD
  | .b => s.flagB
  | .v => s.flagV
  | .n => s.flagN

/-- The state with a bit in the flag. -/
def State.setFlag (s : State) (f : FlagName) (v : Bool) : State :=
  match f with
  | .c => { s with flagC := v }
  | .z => { s with flagZ := v }
  | .i => { s with flagI := v }
  | .d => { s with flagD := v }
  | .b => { s with flagB := v }
  | .v => { s with flagV := v }
  | .n => { s with flagN := v }

/-- One operation of the host: its answer and the state it leaves (46_exec_loop.md R191). -/
def hostOp (op : HostOp) (s : State) : HostReply × State :=
  match op with
  | .reset => (.done, s.resetOp)
  | .poke a v =>
    match memWrite a v s with
    | .ok t => (.done, t)
    | .error f => (.fault f, s)
  | .peek a =>
    match memRead a s with
    | .ok v => (.value v.toNat, s)
    | .error f => (.fault f, s)
  | .writeReg r v =>
    if v < r.size then (.done, s.setRegName r v) else (.refused .valueOutOfRange, s)
  | .readReg r => (.value (s.getRegName r), s)
  | .writeFlag f v =>
    if v < 2 then (.done, s.setFlag f (v == 1)) else (.refused .valueOutOfRange, s)
  | .readFlag f => (.value (s.getFlag f).toNat, s)
  | .memInit => (.done, memInit s)
  | .exec n => let r := runExec n s; (.exec r.1, r.2)

end Sys2Proof.Machine
end

