-- ==== Sys2Proof/WellFormed.lean ====
section
/-! DEFINITION. Well-formedness. Every operand value of every handled opcode is legal (60_exceptions.md R203), and the
operand widths stand in the types of `Instr`, so no instruction is ill-formed. What can be ill-formed is a piece of
code: a list of bytes is one whole instruction when it has an opcode byte, the opcode is handled (30_encoding.md R86),
and its length is the one the opcode's row gives (30_encoding.md R83). -/

namespace Sys2Proof

/-- No instruction is ill-formed: "every operand value of every handled opcode is legal" (60_exceptions.md R203). -/
def Instr.wellFormed : Instr → Bool
  | .nop => true
  | .ldaIm _ => true
  | .ldaZp _ => true
  | .ldaZpx _ => true
  | .ldaAbs _ => true
  | .ldaAbsx _ => true
  | .ldaAbsy _ => true
  | .ldaIndx _ => true
  | .ldaIndy _ => true
  | .ldxIm _ => true
  | .ldxZp _ => true
  | .ldxZpy _ => true
  | .ldxAbs _ => true
  | .ldxAbsy _ => true
  | .ldyIm _ => true
  | .ldyZp _ => true
  | .ldyZpx _ => true
  | .ldyAbs _ => true
  | .ldyAbsx _ => true
  | .jsr _ => true

/-- Check 1: there is an opcode byte (30_encoding.md R80). -/
def hasOpcodeByte (bytes : List Byte) : Bool := !bytes.isEmpty

/-- Check 2: the opcode byte is one of the twenty (30_encoding.md R84, R86). -/
def opcodeHandled : List Byte → Bool
  | [] => false
  | op :: _ => (formOf op).isSome

/-- Check 3: the length is the one of the opcode's format (30_encoding.md R81, R83). -/
def lengthFits : List Byte → Bool
  | [] => false
  | op :: rest =>
    match formOf op with
    | none => false
    | some f => rest.length + 1 == f.length

/-- The bytes are exactly one instruction. -/
def isWholeInstruction (bytes : List Byte) : Bool :=
  hasOpcodeByte bytes && opcodeHandled bytes && lengthFits bytes

end Sys2Proof
end

