-- ==== Sys2Proof/Safety.lean ====
section
/-! DEFINITION. What counts as a safe state, in the terms the claims use: a runnable pair, a step that does not fault,
memory in canonical form, and the evenness of `SP` that keeps JSR from faulting. -/

namespace Sys2Proof.Machine

/-- The pair is runnable (46_exec_loop.md R188): it has been reset and no fault is latched. -/
abbrev State.Runnable (s : State) : Prop := s.ready = true ∧ s.fault = none

/-- The opcode at `PC` is one of the twenty (30_encoding.md R84). -/
abbrev State.OpcodeHandled (s : State) : Prop := (formOf s.opcode).isSome = true

/-- The opcode at `PC` is JSR's and its stack write would pass the top of memory (45_jsr.md R171). -/
abbrev State.JsrPastTop (s : State) : Prop := s.opcode = 0x20#8 ∧ s.sp = 0xFFFF#16

/-- A state from which a step ends in a new state: nothing else faults (60_exceptions.md R203). -/
abbrev State.CanStep (s : State) : Prop := s.Runnable ∧ s.OpcodeHandled ∧ ¬ s.JsrPastTop

/-- `SP` is even, as it is from reset unless the host writes an odd value into it (10_state.md R23). -/
abbrev State.SpEven (s : State) : Prop := s.sp.toNat % 2 = 0

/-- The memory is in canonical form. -/
abbrev State.MemoryCanonical (s : State) : Prop := s.mem.wf

/-- A run of `k` steps from a state, every one of which ends in a new state. -/
def safeFor : Nat → State → Prop
  | 0, _ => True
  | k + 1, s => ∃ t, step s = .next t ∧ safeFor k t

end Sys2Proof.Machine
end

