-- ==== Sys2Proof/Certificates/Slice0/Obligations.lean ====
section
/-! DEFINITION. The statements for the provers, each from a numbered rule of the spec or from a section of it, and the
functions they are written with. A statement says what the spec says in the spec's own terms (arithmetic on naturals,
the cost table, the opcode list), not in terms of the model's helpers. -/

namespace Sys2Proof.Claims

open Sys2Proof.Machine

/-- The twenty opcode values of 30_encoding.md R84. -/
def handledOpcodes : List Byte :=
  [0x20#8, 0xA0#8, 0xA1#8, 0xA2#8, 0xA4#8, 0xA5#8, 0xA6#8, 0xA9#8, 0xAC#8, 0xAD#8,
   0xAE#8, 0xB1#8, 0xB4#8, 0xB5#8, 0xB6#8, 0xB9#8, 0xBC#8, 0xBD#8, 0xBE#8, 0xEA#8]

/-- The state after a load of `v` into `A` by an instruction of `len` bytes and `cost` cycles: the register, `Z`, `N`,
`PC` and the counter change and nothing else (40_primitives_addressing.md R106, R118). -/
def loadedA (s : State) (v : Byte) (len : Nat) (cost : Int) : State :=
  { s with
    a := v
    flagZ := decide (v.toNat = 0)
    flagN := decide (0x80 ≤ v.toNat)
    pc := BitVec.ofNat 16 (s.pc.toNat + len)
    cyc := s.cyc - cost }

/-- The state after a load of `v` into `X`. -/
def loadedX (s : State) (v : Byte) (len : Nat) (cost : Int) : State :=
  { s with
    x := v
    flagZ := decide (v.toNat = 0)
    flagN := decide (0x80 ≤ v.toNat)
    pc := BitVec.ofNat 16 (s.pc.toNat + len)
    cyc := s.cyc - cost }

/-- The state after a load of `v` into `Y`. -/
def loadedY (s : State) (v : Byte) (len : Nat) (cost : Int) : State :=
  { s with
    y := v
    flagZ := decide (v.toNat = 0)
    flagN := decide (0x80 ≤ v.toNat)
    pc := BitVec.ofNat 16 (s.pc.toNat + len)
    cyc := s.cyc - cost }

/-- The little-endian word at the zero-page address `p`: its high byte is at `p + 1`, not wrapped
(40_primitives_addressing.md R103). -/
def pointerAt (s : State) (p : Nat) : Nat := (s.mem.read p).toNat + 256 * (s.mem.read (p + 1)).toNat

/-- The page-cross cycle of an indexed access (40_primitives_addressing.md R117): under TRUE_PAGE where the high bytes of
base and sum differ, under REF_APPROX where the index is 0xFF. -/
def crossCost (policy : PageCrossPolicy) (base index : Nat) : Int :=
  match policy with
  | .truePage => if base / 256 = (base + index) % 65536 / 256 then 0 else 1
  | .refApprox => if index = 0xFF then 1 else 0

/-- The register an instruction loads (10_state.md R21); none for NOP and JSR. -/
def destination : Instr → Option Reg
  | .nop => none
  | .ldaIm _ => some .a
  | .ldaZp _ => some .a
  | .ldaZpx _ => some .a
  | .ldaAbs _ => some .a
  | .ldaAbsx _ => some .a
  | .ldaAbsy _ => some .a
  | .ldaIndx _ => some .a
  | .ldaIndy _ => some .a
  | .ldxIm _ => some .x
  | .ldxZp _ => some .x
  | .ldxZpy _ => some .x
  | .ldxAbs _ => some .x
  | .ldxAbsy _ => some .x
  | .ldyIm _ => some .y
  | .ldyZp _ => some .y
  | .ldyZpx _ => some .y
  | .ldyAbs _ => some .y
  | .ldyAbsx _ => some .y
  | .jsr _ => none

/-- The cost of an instruction, the opcode fetch included: the table of 46_exec_loop.md R192. -/
def costOf (i : Instr) (s : State) : Int :=
  match i with
  | .nop => 2
  | .ldaIm _ => 2
  | .ldaZp _ => 3
  | .ldaZpx _ => 4
  | .ldaAbs _ => 4
  | .ldaAbsx w => 4 + crossCost s.pageCross w.toNat s.x.toNat
  | .ldaAbsy w => 4 + crossCost s.pageCross w.toNat s.y.toNat
  | .ldaIndx _ => 6
  | .ldaIndy b => 5 + crossCost s.pageCross (pointerAt s b.toNat) s.y.toNat
  | .ldxIm _ => 2
  | .ldxZp _ => 3
  | .ldxZpy _ => 4
  | .ldxAbs _ => 4
  | .ldxAbsy w => 4 + crossCost s.pageCross w.toNat s.y.toNat
  | .ldyIm _ => 2
  | .ldyZp _ => 3
  | .ldyZpx _ => 4
  | .ldyAbs _ => 4
  | .ldyAbsx w => 4 + crossCost s.pageCross w.toNat s.x.toNat
  | .jsr _ => 6

end Sys2Proof.Claims

open Sys2Proof Sys2Proof.Machine Sys2Proof.Claims

/-- Decoding the encoding of any instruction gives that instruction back (30_encoding.md sections 1 and 2 (formats
and opcode map)). -/
def Obligations.DecodeInvertsEncode : Prop :=
  ∀ (i : Instr) (rest : List Byte), decode (encode i ++ rest) = .ok (i, rest)

/-- Whatever bytes decode to an instruction are its encoding followed by the rest (30_encoding.md sections 1 and 2
(formats and opcode map)). -/
def Obligations.DecodedBytesAreTheEncoding : Prop :=
  ∀ (bytes rest : List Byte) (i : Instr), decode bytes = .ok (i, rest) → bytes = encode i ++ rest

/-- Words of each family, written out from the spec, decode to what they stand for (30_encoding.md sections 1 and 2
(formats and opcode map), 95_test_vectors.md parts 1 and 2). -/
def Obligations.OpcodeWordsDecode : Prop :=
  decode [0xEA#8] = .ok (.nop, []) ∧
  decode [0xA9#8, 0x84#8] = .ok (.ldaIm 0x84#8, []) ∧
  decode [0xBD#8, 0x02#8, 0x44#8] = .ok (.ldaAbsx 0x4402#16, []) ∧
  decode [0xB6#8, 0x80#8] = .ok (.ldxZpy 0x80#8, []) ∧
  decode [0xAE#8, 0x00#8, 0x30#8] = .ok (.ldxAbs 0x3000#16, []) ∧
  decode [0xB4#8, 0xF0#8] = .ok (.ldyZpx 0xF0#8, []) ∧
  decode [0xBC#8, 0xFF#8, 0x20#8] = .ok (.ldyAbsx 0x20FF#16, []) ∧
  decode [0x20#8, 0x34#8, 0x12#8] = .ok (.jsr 0x1234#16, [])

/-- Exactly the twenty opcodes are handled; each of the other 236 faults when fetched as an opcode (R86). -/
def Obligations.OtherOpcodesAreUnhandled : Prop :=
  (∀ op : Byte, (formOf op).isSome = true ↔ op ∈ handledOpcodes) ∧
  ((List.range 256).filter fun k => (formOf (BitVec.ofNat 8 k)).isNone).length = 236 ∧
  0x00#8 ∉ handledOpcodes ∧
  ∀ s : State, s.Runnable → s.mem.read s.pc.toNat ∉ handledOpcodes →
    step s = .fault (.unknownOpcode (s.mem.read s.pc.toNat) s.pc)

/-- A step of a runnable pair is exec of the instruction decoded at PC (46_exec_loop.md section 1 (Exec and Step)). -/
def Obligations.StepRunsDecodedInstruction : Prop :=
  ∀ (s : State) (i : Instr) (rest : List Byte), s.Runnable →
    decode [s.mem.read s.pc.toNat, s.mem.read ((s.pc.toNat + 1) % 65536), s.mem.read ((s.pc.toNat + 2) % 65536)] =
      .ok (i, rest) →
    i.wellFormed = true ∧ step s = exec i s

/-- NOP moves PC by 1, costs 2 cycles and changes nothing else (R130). -/
def Obligations.NopResult : Prop :=
  ∀ s : State, encode .nop = [0xEA#8] ∧
    exec .nop s = .next { s with pc := s.pc + 1#16, cyc := s.cyc - 2 }

/-- LDA_IM loads A, sets Z and N from the value, moves PC by 2, debits its cost, and changes nothing else (R140). -/
def Obligations.LdaImmediateResult : Prop :=
  ∀ (b : Byte) (s : State), encode (.ldaIm b) = [0xA9#8, b] ∧
    exec (.ldaIm b) s = .next (loadedA s b 2 2)

/-- LDA_ZP loads A, sets Z and N from the value, moves PC by 2, debits its cost, and changes nothing else (R141). -/
def Obligations.LdaZeroPageResult : Prop :=
  ∀ (b : Byte) (s : State), encode (.ldaZp b) = [0xA5#8, b] ∧
    exec (.ldaZp b) s = .next (loadedA s (s.mem.read b.toNat) 2 3)

/-- LDA_ZPX loads A, sets Z and N from the value, moves PC by 2, debits its cost, and changes nothing else (R142). -/
def Obligations.LdaZeroPageXResult : Prop :=
  ∀ (b : Byte) (s : State), encode (.ldaZpx b) = [0xB5#8, b] ∧
    exec (.ldaZpx b) s = .next (loadedA s (s.mem.read ((b.toNat + s.x.toNat) % 256)) 2 4)

/-- LDA_ABS loads A, sets Z and N from the value, moves PC by 3, debits its cost, and changes nothing else (R143). -/
def Obligations.LdaAbsoluteResult : Prop :=
  ∀ (w : Word) (s : State), encode (.ldaAbs w) = [0xAD#8, BitVec.ofNat 8 w.toNat, BitVec.ofNat 8 (w.toNat / 256)] ∧
    exec (.ldaAbs w) s = .next (loadedA s (s.mem.read w.toNat) 3 4)

/-- LDA_ABSX loads A, sets Z and N from the value, moves PC by 3, debits its cost, and changes nothing else (R144). -/
def Obligations.LdaAbsoluteXResult : Prop :=
  ∀ (w : Word) (s : State), encode (.ldaAbsx w) = [0xBD#8, BitVec.ofNat 8 w.toNat, BitVec.ofNat 8 (w.toNat / 256)] ∧
    exec (.ldaAbsx w) s = .next (loadedA s (s.mem.read ((w.toNat + s.x.toNat) % 65536)) 3 (4 + crossCost s.pageCross w.toNat s.x.toNat))

/-- LDA_ABSY loads A, sets Z and N from the value, moves PC by 3, debits its cost, and changes nothing else (R145). -/
def Obligations.LdaAbsoluteYResult : Prop :=
  ∀ (w : Word) (s : State), encode (.ldaAbsy w) = [0xB9#8, BitVec.ofNat 8 w.toNat, BitVec.ofNat 8 (w.toNat / 256)] ∧
    exec (.ldaAbsy w) s = .next (loadedA s (s.mem.read ((w.toNat + s.y.toNat) % 65536)) 3 (4 + crossCost s.pageCross w.toNat s.y.toNat))

/-- LDA_INDX loads A, sets Z and N from the value, moves PC by 2, debits its cost, and changes nothing else (R146). -/
def Obligations.LdaIndirectXResult : Prop :=
  ∀ (b : Byte) (s : State), encode (.ldaIndx b) = [0xA1#8, b] ∧
    exec (.ldaIndx b) s = .next (loadedA s (s.mem.read (pointerAt s ((b.toNat + s.x.toNat) % 256))) 2 6)

/-- LDA_INDY loads A, sets Z and N from the value, moves PC by 2, debits its cost, and changes nothing else (R147). -/
def Obligations.LdaIndirectYResult : Prop :=
  ∀ (b : Byte) (s : State), encode (.ldaIndy b) = [0xB1#8, b] ∧
    exec (.ldaIndy b) s = .next (loadedA s (s.mem.read ((pointerAt s b.toNat + s.y.toNat) % 65536)) 2 (5 + crossCost s.pageCross (pointerAt s b.toNat) s.y.toNat))

/-- LDX_IM loads X, sets Z and N from the value, moves PC by 2, debits its cost, and changes nothing else (R150). -/
def Obligations.LdxImmediateResult : Prop :=
  ∀ (b : Byte) (s : State), encode (.ldxIm b) = [0xA2#8, b] ∧
    exec (.ldxIm b) s = .next (loadedX s b 2 2)

/-- LDX_ZP loads X, sets Z and N from the value, moves PC by 2, debits its cost, and changes nothing else (R151). -/
def Obligations.LdxZeroPageResult : Prop :=
  ∀ (b : Byte) (s : State), encode (.ldxZp b) = [0xA6#8, b] ∧
    exec (.ldxZp b) s = .next (loadedX s (s.mem.read b.toNat) 2 3)

/-- LDX_ZPY loads X, sets Z and N from the value, moves PC by 2, debits its cost, and changes nothing else (R152). -/
def Obligations.LdxZeroPageYResult : Prop :=
  ∀ (b : Byte) (s : State), encode (.ldxZpy b) = [0xB6#8, b] ∧
    exec (.ldxZpy b) s = .next (loadedX s (s.mem.read ((b.toNat + s.y.toNat) % 256)) 2 4)

/-- LDX_ABS loads X, sets Z and N from the value, moves PC by 3, debits its cost, and changes nothing else (R153). -/
def Obligations.LdxAbsoluteResult : Prop :=
  ∀ (w : Word) (s : State), encode (.ldxAbs w) = [0xAE#8, BitVec.ofNat 8 w.toNat, BitVec.ofNat 8 (w.toNat / 256)] ∧
    exec (.ldxAbs w) s = .next (loadedX s (s.mem.read w.toNat) 3 4)

/-- LDX_ABSY loads X, sets Z and N from the value, moves PC by 3, debits its cost, and changes nothing else (R154). -/
def Obligations.LdxAbsoluteYResult : Prop :=
  ∀ (w : Word) (s : State), encode (.ldxAbsy w) = [0xBE#8, BitVec.ofNat 8 w.toNat, BitVec.ofNat 8 (w.toNat / 256)] ∧
    exec (.ldxAbsy w) s = .next (loadedX s (s.mem.read ((w.toNat + s.y.toNat) % 65536)) 3 (4 + crossCost s.pageCross w.toNat s.y.toNat))

/-- LDY_IM loads Y, sets Z and N from the value, moves PC by 2, debits its cost, and changes nothing else (R160). -/
def Obligations.LdyImmediateResult : Prop :=
  ∀ (b : Byte) (s : State), encode (.ldyIm b) = [0xA0#8, b] ∧
    exec (.ldyIm b) s = .next (loadedY s b 2 2)

/-- LDY_ZP loads Y, sets Z and N from the value, moves PC by 2, debits its cost, and changes nothing else (R161). -/
def Obligations.LdyZeroPageResult : Prop :=
  ∀ (b : Byte) (s : State), encode (.ldyZp b) = [0xA4#8, b] ∧
    exec (.ldyZp b) s = .next (loadedY s (s.mem.read b.toNat) 2 3)

/-- LDY_ZPX loads Y, sets Z and N from the value, moves PC by 2, debits its cost, and changes nothing else (R162). -/
def Obligations.LdyZeroPageXResult : Prop :=
  ∀ (b : Byte) (s : State), encode (.ldyZpx b) = [0xB4#8, b] ∧
    exec (.ldyZpx b) s = .next (loadedY s (s.mem.read ((b.toNat + s.x.toNat) % 256)) 2 4)

/-- LDY_ABS loads Y, sets Z and N from the value, moves PC by 3, debits its cost, and changes nothing else (R163). -/
def Obligations.LdyAbsoluteResult : Prop :=
  ∀ (w : Word) (s : State), encode (.ldyAbs w) = [0xAC#8, BitVec.ofNat 8 w.toNat, BitVec.ofNat 8 (w.toNat / 256)] ∧
    exec (.ldyAbs w) s = .next (loadedY s (s.mem.read w.toNat) 3 4)

/-- LDY_ABSX loads Y, sets Z and N from the value, moves PC by 3, debits its cost, and changes nothing else (R164). -/
def Obligations.LdyAbsoluteXResult : Prop :=
  ∀ (w : Word) (s : State), encode (.ldyAbsx w) = [0xBC#8, BitVec.ofNat 8 w.toNat, BitVec.ofNat 8 (w.toNat / 256)] ∧
    exec (.ldyAbsx w) s = .next (loadedY s (s.mem.read ((w.toNat + s.x.toNat) % 65536)) 3 (4 + crossCost s.pageCross w.toNat s.x.toNat))

/-- JSR stores the address of its last byte at SP, moves SP up by 2, jumps, and costs 6 cycles (R170). -/
def Obligations.JsrResult : Prop :=
  ∀ (w : Word) (s : State),
    encode (.jsr w) = [0x20#8, BitVec.ofNat 8 w.toNat, BitVec.ofNat 8 (w.toNat / 256)] ∧
    (s.sp ≠ 0xFFFF#16 → ∃ t, exec (.jsr w) s = .next t ∧
      t = { s with pc := w, sp := s.sp + 2#16, cyc := s.cyc - 6, mem := t.mem } ∧
      t.mem.read s.sp.toNat = BitVec.ofNat 8 ((s.pc.toNat + 2) % 65536) ∧
      t.mem.read (s.sp.toNat + 1) = BitVec.ofNat 8 ((s.pc.toNat + 2) % 65536 / 256) ∧
      ∀ a : Nat, a ≠ s.sp.toNat → a ≠ s.sp.toNat + 1 → t.mem.read a = s.mem.read a) ∧
    (s.sp = 0xFFFF#16 → exec (.jsr w) s = .fault (.outOfBounds 0x10000))

/-- JSR with SP = 0xFFFF raises OutOfBounds(0x10000) and the Exec call ends with that fault (R171). -/
def Obligations.JsrAtTopOfMemoryFaults : Prop :=
  (∀ (w : Word) (s : State), s.sp = 0xFFFF#16 → exec (.jsr w) s = .fault (.outOfBounds 0x10000)) ∧
  (∀ (n : Int) (s : State), 0 < n → s.Runnable → s.mem.read s.pc.toNat = 0x20#8 → s.sp = 0xFFFF#16 →
    (runExec n s).1 = .faulted (.outOfBounds 0x10000)) ∧
  State.reset.SpEven ∧ ∀ s t : State, s.SpEven → step s = .next t → t.SpEven ∧ t.sp ≠ 0xFFFF#16

/-- The load flags: Z and N are determined by the loaded value, the other five flags are kept (R106). -/
def Obligations.LoadFlagsFollowTheValue : Prop :=
  ∀ (v : Byte) (s : State),
    s.setLoadFlags v =
      { s with flagZ := (s.setLoadFlags v).flagZ, flagN := (s.setLoadFlags v).flagN } ∧
    (v.toNat = 0 → (s.setLoadFlags v).flagZ = true ∧ (s.setLoadFlags v).flagN = false) ∧
    (1 ≤ v.toNat → v.toNat ≤ 0x7F → (s.setLoadFlags v).flagZ = false ∧ (s.setLoadFlags v).flagN = false) ∧
    (0x80 ≤ v.toNat → (s.setLoadFlags v).flagZ = false ∧ (s.setLoadFlags v).flagN = true) ∧
    ¬ ((s.setLoadFlags v).flagZ = true ∧ (s.setLoadFlags v).flagN = true)

/-- No instruction changes C, I, D, B or V, and only the loads change Z and N (10_state.md section 5 (flags),
40_primitives_addressing.md section 2 (flag derivation)). -/
def Obligations.FlagsOutsideLoadsAreKept : Prop :=
  ∀ (i : Instr) (s t : State), exec i s = .next t →
    t.flagC = s.flagC ∧ t.flagI = s.flagI ∧ t.flagD = s.flagD ∧ t.flagB = s.flagB ∧ t.flagV = s.flagV ∧
    (destination i = none → t.flagZ = s.flagZ ∧ t.flagN = s.flagN)

/-- A changes only by LDA, X only by LDX, Y only by LDY (10_state.md section 2 (general registers)). -/
def Obligations.RegistersChangeOnlyByTheirLoads : Prop :=
  ∀ (i : Instr) (s t : State), exec i s = .next t →
    (destination i ≠ some .a → t.a = s.a) ∧ (destination i ≠ some .x → t.x = s.x) ∧
    (destination i ≠ some .y → t.y = s.y)

/-- Memory and SP change only by JSR, and JSR changes only the two bytes at SP and SP + 1 (20_memory.md sections 1
and 4, 10_state.md section 4 (stack pointer)). -/
def Obligations.OnlyJsrWritesMemoryAndSp : Prop :=
  ∀ (i : Instr) (s t : State), exec i s = .next t →
    ((∀ w, i ≠ .jsr w) → t.mem = s.mem ∧ t.sp = s.sp) ∧
    (∀ w, i = .jsr w → t.sp.toNat = (s.sp.toNat + 2) % 65536 ∧
      ∀ a : Nat, a ≠ s.sp.toNat → a ≠ s.sp.toNat + 1 → t.mem.read a = s.mem.read a)

/-- Every instruction other than JSR leaves PC at its own address plus its length; JSR leaves it at its target
(45_jsr.md (control transfer in general), 30_encoding.md section 1 (lengths)). -/
def Obligations.ControlFlowIsSequentialButForJsr : Prop :=
  ∀ (i : Instr) (s t : State), exec i s = .next t →
    ((∀ w, i ≠ .jsr w) → t.pc.toNat = (s.pc.toNat + (encode i).length) % 65536) ∧
    (∀ w, i = .jsr w → t.pc = w)

/-- Each instruction debits the counter by its cost, between 2 and 6 cycles (R192). -/
def Obligations.InstructionCosts : Prop :=
  ∀ (i : Instr) (s t : State), exec i s = .next t →
    s.cyc - t.cyc = costOf i s ∧ 2 ≤ costOf i s ∧ costOf i s ≤ 6

/-- The page-cross test under both policies (R117). -/
def Obligations.PageCrossPolicies : Prop :=
  Config.pageCrossDefault = .truePage ∧
  (∀ base sum : Word, pageCross .truePage base sum = true ↔ base.toNat / 256 ≠ sum.toNat / 256) ∧
  (∀ base sum : Word, pageCross .refApprox base sum = true ↔ 0xFF ≤ (sum.toNat + 65536 - base.toNat) % 65536) ∧
  (∀ (base sum : Word) (index : Byte), sum.toNat = (base.toNat + index.toNat) % 65536 →
    (pageCross .refApprox base sum = true ↔ index = 0xFF#8))

/-- One-byte reads and writes below CAP act on their cell alone; at CAP and above they raise OutOfBounds (R51, R52). -/
def Obligations.MemoryAccessIsBoundsChecked : Prop :=
  ∀ (a : Nat) (v : Byte) (s : State),
    (65536 ≤ a → memRead a s = .error (.outOfBounds a) ∧ memWrite a v s = .error (.outOfBounds a)) ∧
    (a < 65536 → memRead a s = .ok (s.mem.read a) ∧
      ∃ t, memWrite a v s = .ok t ∧ t = { s with mem := t.mem } ∧ t.mem.read a = v ∧
        ∀ b : Nat, b ≠ a → t.mem.read b = s.mem.read b)

/-- The host peeks what it poked; out of bounds it gets the fault and nothing changes, the latch included
(20_memory.md section 1 (host access), 60_exceptions.md section 4 (fault entry)). -/
def Obligations.PokeThenPeek : Prop :=
  ∀ (a b : Nat) (v : Byte) (s : State),
    (a < 65536 → (hostOp (.poke a v) s).1 = .done ∧
      (hostOp (.peek b) (hostOp (.poke a v) s).2).1 = (if b = a then .value v.toNat else (hostOp (.peek b) s).1)) ∧
    (65536 ≤ a → hostOp (.poke a v) s = (.fault (.outOfBounds a), s) ∧
      hostOp (.peek a) s = (.fault (.outOfBounds a), s))

/-- The word write: low byte first, two cycles, OutOfBounds at 0xFFFF before anything is written (R54). -/
def Obligations.WordWriteIsLittleEndian : Prop :=
  ∀ (a w : Word) (s : State),
    (a.toNat + 1 < 65536 → ∃ t, writeWord a w s = .ok t ∧ t = { s with mem := t.mem, cyc := s.cyc - 2 } ∧
      t.mem.read a.toNat = BitVec.ofNat 8 w.toNat ∧ t.mem.read (a.toNat + 1) = BitVec.ofNat 8 (w.toNat / 256) ∧
      ∀ b : Nat, b ≠ a.toNat → b ≠ a.toNat + 1 → t.mem.read b = s.mem.read b) ∧
    (65536 ≤ a.toNat + 1 → writeWord a w s = .error (.outOfBounds (a.toNat + 1)))

/-- FetchByte and FetchWord: the bytes at PC, PC wraps, 1 or 2 cycles (R100, R101). -/
def Obligations.FetchPrimitives : Prop :=
  ∀ s : State,
    fetchByte s = (s.mem.read s.pc.toNat, { s with pc := s.pc + 1#16, cyc := s.cyc - 1 }) ∧
    (fetchWord s).1.toNat =
      (s.mem.read s.pc.toNat).toNat + 256 * (s.mem.read ((s.pc.toNat + 1) % 65536)).toNat ∧
    (fetchWord s).2 = { s with pc := s.pc + 2#16, cyc := s.cyc - 2 }

/-- ReadByte and ReadWord: 1 and 2 cycles; a pointer at 0xFF takes its high byte from 0x0100 (R102, R103). -/
def Obligations.ReadPrimitives : Prop :=
  ∀ (a : Word) (p : Byte) (s : State),
    readByte a s = (s.mem.read a.toNat, { s with cyc := s.cyc - 1 }) ∧
    (readWord p s).1.toNat = (s.mem.read p.toNat).toNat + 256 * (s.mem.read (p.toNat + 1)).toNat ∧
    (readWord p s).2 = { s with cyc := s.cyc - 2 }

/-- Every step keeps the memory in canonical form (20_memory.md section 1 (the Memory component)).
MODEL: The form is the model's choice (log entry 9). -/
def Obligations.StepKeepsMemoryCanonical : Prop :=
  ∀ s t : State, s.MemoryCanonical → step s = .next t → t.MemoryCanonical

/-- Every operation of the host, an Exec call of any length included, keeps the memory in canonical form
(46_exec_loop.md sections 1 and 3 (Exec and the host interface)).
MODEL: The form is the model's choice (log entry 9). -/
def Obligations.HostOpsKeepMemoryCanonical : Prop :=
  ∀ (op : HostOp) (s : State), s.MemoryCanonical → (hostOp op s).2.MemoryCanonical

/-- The state after reset is runnable, its memory canonical, its SP even (10_state.md section 8 (reset values)).
MODEL: The canonical form is the model's choice (log entry 9); the rest are the reset values of the spec. -/
def Obligations.ResetMeetsTheInvariants : Prop :=
  State.reset.Runnable ∧ State.reset.MemoryCanonical ∧ State.reset.SpEven

/-- Two canonical memories that read alike are the same memory (20_memory.md section 1 (the Memory component)).
MODEL: If two memories in canonical form read the same at every address then they are equal: the representation
(the model's choice, log entry 9) distinguishes nothing the spec does not. -/
def Obligations.CanonicalMemoriesAreTheirReads : Prop :=
  ∀ m k : Memory, m.wf → k.wf → (∀ a : Nat, a < 65536 → m.read a = k.read a) → m = k

/-- Reset leaves the reset state, whatever the state before (R230). -/
def Obligations.ResetLeaves : Prop :=
  ∀ s : State, (hostOp .reset s).1 = .done ∧
    let t := (hostOp .reset s).2
    t.pc = 0xFFFC#16 ∧ t.sp = 0x0100#16 ∧ t.a = 0x00#8 ∧ t.x = 0x00#8 ∧ t.y = 0x00#8 ∧
    t.flagC = false ∧ t.flagZ = false ∧ t.flagI = false ∧ t.flagD = false ∧ t.flagB = false ∧ t.flagV = false ∧
    t.flagN = false ∧ t.ready = true ∧ t.fault = none ∧ (∀ a : Nat, t.mem.read a = 0x00#8)

/-- A freshly reset pair faults on its first step with UnknownOpcode(0x00, 0xFFFC) (R233). -/
def Obligations.FreshlyResetPairFaults : Prop :=
  ∀ s : State, (∀ a : Nat, (hostOp .reset s).2.mem.read a = 0x00#8) ∧
    step (hostOp .reset s).2 = .fault (.unknownOpcode 0x00#8 0xFFFC#16) ∧
    ∀ n : Int, 0 < n → (runExec n (hostOp .reset s).2).1 = .faulted (.unknownOpcode 0x00#8 0xFFFC#16)

/-- An even SP stays even, and with an even SP no step goes out of bounds (10_state.md section 4 (stack pointer)). -/
def Obligations.SpStaysEven : Prop :=
  ∀ s : State, s.SpEven → s.Runnable →
    (∀ t, step s = .next t → t.SpEven) ∧
    (∀ f, step s = .fault f → f = .unknownOpcode (s.mem.read s.pc.toNat) s.pc)

/-- A step of a runnable pair ends in a next state exactly when the opcode is handled and is not a JSR with SP =
0xFFFF (60_exceptions.md section 1 (faults), 46_exec_loop.md section 1 (Step)). -/
def Obligations.StepCompletesExactlyWhen : Prop :=
  ∀ s : State, s.Runnable →
    ((∃ t, step s = .next t) ↔
      s.mem.read s.pc.toNat ∈ handledOpcodes ∧ ¬ (s.mem.read s.pc.toNat = 0x20#8 ∧ s.sp = 0xFFFF#16))

/-- A step of a runnable pair is never refused and faults only in the two ways the spec names (60_exceptions.md
section 1 (faults), 60_exceptions.md section 3 (priority)). -/
def Obligations.OnlyTwoFaults : Prop :=
  ∀ s : State, s.Runnable →
    (∀ r, step s ≠ .refused r) ∧
    ∀ f, step s = .fault f ↔
      (s.mem.read s.pc.toNat ∉ handledOpcodes ∧ f = .unknownOpcode (s.mem.read s.pc.toNat) s.pc) ∨
      (s.mem.read s.pc.toNat = 0x20#8 ∧ s.sp = 0xFFFF#16 ∧ f = .outOfBounds 0x10000)

/-- Exec on a pair never reset is refused, on a faulted pair returns the same fault; neither changes anything, until
Reset (R188). -/
def Obligations.UnrunnablePairDoesNothing : Prop :=
  ∀ (n : Int) (s : State),
    (s.ready = false → runExec n s = (.refused .notReset, s)) ∧
    (∀ f, s.ready = true → s.fault = some f → runExec n s = (.faulted f, s)) ∧
    (hostOp .reset s).2.Runnable ∧
    ∀ (policy : PageCrossPolicy) (k : Nat), (State.constructed policy k).ready = false

/-- A fault inside Exec sets the latch; nothing but Reset clears it; a poke or peek out of range does not set it
(R27). -/
def Obligations.FaultLatchesUntilReset : Prop :=
  (∀ (n : Int) (s : State) (f : Fault), s.Runnable → (runExec n s).1 = .faulted f →
    (runExec n s).2.fault = some f ∧ ∀ m : Int, runExec m (runExec n s).2 = (.faulted f, (runExec n s).2)) ∧
  (∀ (op : HostOp) (s : State) (f : Fault), s.fault = some f → op ≠ .reset →
    (hostOp op s).2.fault = some f) ∧
  (∀ s : State, (hostOp .reset s).2.fault = none) ∧
  (∀ (op : HostOp) (s : State), s.fault = none → (∀ n, op ≠ .exec n) → (hostOp op s).2.fault = none)

/-- Exec(n) is the spec's loop: whole steps while the counter is positive (R181). -/
def Obligations.ExecIsTheWhileLoop : Prop :=
  (∀ s : State, runLoop s = if 0 < s.cyc then
      match step s with
      | .next t => runLoop t
      | .fault f => .fault f
      | .refused r => .refused r
    else .next s) ∧
  ∀ (n : Int) (s : State),
    (s.ready = false → (runExec n s).1 = .refused .notReset) ∧
    (∀ f, s.ready = true → s.fault = some f → (runExec n s).1 = .faulted f) ∧
    (s.Runnable →
      (∀ t, runLoop { s with cyc := n } = .next t →
        (runExec n s).1 = .ok (n - t.cyc) ∧ (runExec n s).2 = { t with cyc := (runExec n s).2.cyc }) ∧
      (∀ f, runLoop { s with cyc := n } = .fault f → (runExec n s).1 = .faulted f))

/-- An Exec call of n >= 1 cycles that does not fault uses at least n and at most n + 5 (46_exec_loop.md section 1
(overspend and the properties of Exec)). -/
def Obligations.ExecCyclesUsedBounds : Prop :=
  ∀ (n : Int) (s : State), 1 ≤ n → s.Runnable →
    (∃ k, (runExec n s).1 = .ok k ∧ n ≤ k ∧ k ≤ n + 5 ∧ (runExec n s).2.Runnable) ∨
    (∃ f, (runExec n s).1 = .faulted f)

/-- Exec(n) with n <= 0 executes nothing and returns Ok(0) (R187). -/
def Obligations.NonPositiveBudgetRunsNothing : Prop :=
  ∀ (n : Int) (s : State), n ≤ 0 → s.Runnable →
    (runExec n s).1 = .ok 0 ∧ (runExec n s).2 = { s with cyc := (runExec n s).2.cyc }

/-- Exec(1) executes exactly one instruction, whatever it costs (46_exec_loop.md section 1 (successive calls)).
MODEL: For every runnable state whose bytes at PC decode to an instruction that ends in a next state t, Exec(1)
answers Ok of exactly the cycles the instruction debited and leaves t, the counter aside (log entry 3). -/
def Obligations.ExecOneRunsOneInstruction : Prop :=
  ∀ (i : Instr) (rest : List Byte) (s t : State), s.Runnable →
    decode [s.mem.read s.pc.toNat, s.mem.read ((s.pc.toNat + 1) % 65536), s.mem.read ((s.pc.toNat + 2) % 65536)] =
      .ok (i, rest) →
    exec i s = .next t →
    (runExec 1 s).1 = .ok (s.cyc - t.cyc) ∧ (runExec 1 s).2 = { t with cyc := (runExec 1 s).2.cyc }

/-- What a call leaves in the counter does not matter to the next call (46_exec_loop.md section 1 (overspend and
successive calls), 46_exec_loop.md section 2 (determinism)).
MODEL: That a counter is held outside a call at all is the model's choice (log entry 3). Where the call ends in
a fault, that the registers, flags and memory left are equal too is the model's choice (log entry 2): its free
values are functions of the state with the counter set to n, in the sense of R193 (the same state and n leave
the same state), while R207 promises nothing of those contents; where the call ends in Ok, the equality is the
spec's. -/
def Obligations.OverspendIsNotCarriedOver : Prop :=
  ∀ (n c : Int) (s : State), s.Runnable → runExec n { s with cyc := c } = runExec n s

/-- A JSR to the current SP executes its own return address next (20_memory.md section 4 (instruction-fetch
coherence)). -/
def Obligations.FetchSeesWhatJsrWrote : Prop :=
  ∀ s t : State, exec (.jsr s.sp) s = .next t →
    t.pc = s.sp ∧ t.opcode = BitVec.ofNat 8 ((s.pc.toNat + 2) % 65536) ∧
    t.mem.read (t.pc.toNat + 1) = BitVec.ofNat 8 ((s.pc.toNat + 2) % 65536 / 256)

/-- A step that ends in a next state keeps the pair runnable and the parameter PAGE_CROSS what it is (10_state.md
section 6 (ready and the latch), 00_scope.md section 4 (parameters)).
MODEL: The model's choices here: that every step, not only every call, is refused or faults on a pair that is
not runnable (log entry 1), so that a next state implies s.Runnable; the count State.free, no state of the spec
(log entry 2); the parameter carried by the state as pageCross (log entry 4); and that a step debits the counter
without testing it (log entry 3). -/
def Obligations.StepKeepsThePairRunnable : Prop :=
  ∀ s t : State, step s = .next t →
    s.Runnable ∧ t.Runnable ∧ t.pageCross = s.pageCross ∧ t.free = s.free ∧
    t.cyc + 2 ≤ s.cyc ∧ s.cyc ≤ t.cyc + 6

/-- The host reads back the register or flag it wrote, no other changes, and a value out of range is refused
(10_state.md section 7 (host access to state), 93_implementation_defined.md part 1 (U15)). -/
def Obligations.HostWritesRegistersInRange : Prop :=
  (∀ (r q : RegName) (v : Nat) (s : State),
    (v < r.size → (hostOp (.readReg r) (hostOp (.writeReg r v) s).2).1 = .value v ∧
      (q ≠ r → hostOp (.readReg q) (hostOp (.writeReg r v) s).2 =
        ((hostOp (.readReg q) s).1, (hostOp (.writeReg r v) s).2)) ∧
      (∀ g, (hostOp (.writeReg r v) s).2.getFlag g = s.getFlag g) ∧ (hostOp (.writeReg r v) s).2.mem = s.mem) ∧
    (r.size ≤ v → hostOp (.writeReg r v) s = (.refused .valueOutOfRange, s))) ∧
  ∀ (g h : FlagName) (v : Nat) (s : State),
    (v ≤ 1 → (hostOp (.readFlag g) (hostOp (.writeFlag g v) s).2).1 = .value v ∧
      (h ≠ g → (hostOp (.writeFlag g v) s).2.getFlag h = s.getFlag h) ∧
      (∀ q, (hostOp (.writeFlag g v) s).2.getRegName q = s.getRegName q) ∧
      (hostOp (.writeFlag g v) s).2.mem = s.mem) ∧
    (1 < v → hostOp (.writeFlag g v) s = (.refused .valueOutOfRange, s))

/-- MemInit sets every cell to 0 and changes nothing else (R53). -/
def Obligations.MemInitZeroesEveryCell : Prop :=
  ∀ s : State, (hostOp .memInit s).1 = .done ∧
    (hostOp .memInit s).2 = { s with mem := (hostOp .memInit s).2.mem } ∧
    ∀ a : Nat, (hostOp .memInit s).2.mem.read a = 0x00#8

/-- A fault is precise, sets the latch, and nothing that follows depends on what else it leaves (60_exceptions.md
section 4 (fault entry, state after a fault, return), 46_exec_loop.md section 1 (Exec on a faulted pair)).
MODEL: The fields pageCross and free, which Reset keeps, are the model's own (log entry 4 and log entry 2), and
so is the 0 that cyc holds outside a call (log entry 3). -/
def Obligations.FaultLeavesNothingToRelyOn : Prop :=
  ∀ (n : Int) (s : State) (f : Fault), s.Runnable → (runExec n s).1 = .faulted f →
    (∃ (k : Nat) (u : State), loopWhile k { s with cyc := n } = .next u ∧ 0 < u.cyc ∧ step u = .fault f) ∧
    (runExec n s).2.fault = some f ∧ (runExec n s).2.ready = true ∧
    ∀ t : State, t.fault = (runExec n s).2.fault → t.ready = (runExec n s).2.ready →
      (∀ m : Int, runExec m t = (.faulted f, t)) ∧
      hostOp .reset t = (.done, { State.reset with pageCross := t.pageCross, free := t.free })

/-- An instruction word placed at PC is the instruction the next step runs (46_exec_loop.md section 1 (Step),
20_memory.md section 1 (host access)).
MODEL: Placing the word is the model's stand-in for the host's pokes (log entry 8). -/
def Obligations.PlacedInstructionRuns : Prop :=
  ∀ (s : State) (nbits w : Nat) (i : Instr), decodeTableWord nbits w = some i →
    step (s.withFetchWord nbits w) = exec i (s.withFetchWord nbits w)
end

