-- ==== Sys2Proof/Laws/Decode.lean ====
section
/-! SUPPORT. The opcode table row by row, and how the list decoder and the three-byte decoder agree. -/

namespace Sys2Proof

@[simp] theorem formOf_jsr : formOf 0x20#8 = some (.f2 .jsr) := rfl
@[simp] theorem formOf_ldyIm : formOf 0xA0#8 = some (.f1 .ldyIm) := rfl
@[simp] theorem formOf_ldaIndx : formOf 0xA1#8 = some (.f1 .ldaIndx) := rfl
@[simp] theorem formOf_ldxIm : formOf 0xA2#8 = some (.f1 .ldxIm) := rfl
@[simp] theorem formOf_ldyZp : formOf 0xA4#8 = some (.f1 .ldyZp) := rfl
@[simp] theorem formOf_ldaZp : formOf 0xA5#8 = some (.f1 .ldaZp) := rfl
@[simp] theorem formOf_ldxZp : formOf 0xA6#8 = some (.f1 .ldxZp) := rfl
@[simp] theorem formOf_ldaIm : formOf 0xA9#8 = some (.f1 .ldaIm) := rfl
@[simp] theorem formOf_ldyAbs : formOf 0xAC#8 = some (.f2 .ldyAbs) := rfl
@[simp] theorem formOf_ldaAbs : formOf 0xAD#8 = some (.f2 .ldaAbs) := rfl
@[simp] theorem formOf_ldxAbs : formOf 0xAE#8 = some (.f2 .ldxAbs) := rfl
@[simp] theorem formOf_ldaIndy : formOf 0xB1#8 = some (.f1 .ldaIndy) := rfl
@[simp] theorem formOf_ldyZpx : formOf 0xB4#8 = some (.f1 .ldyZpx) := rfl
@[simp] theorem formOf_ldaZpx : formOf 0xB5#8 = some (.f1 .ldaZpx) := rfl
@[simp] theorem formOf_ldxZpy : formOf 0xB6#8 = some (.f1 .ldxZpy) := rfl
@[simp] theorem formOf_ldaAbsy : formOf 0xB9#8 = some (.f2 .ldaAbsy) := rfl
@[simp] theorem formOf_ldyAbsx : formOf 0xBC#8 = some (.f2 .ldyAbsx) := rfl
@[simp] theorem formOf_ldaAbsx : formOf 0xBD#8 = some (.f2 .ldaAbsx) := rfl
@[simp] theorem formOf_ldxAbsy : formOf 0xBE#8 = some (.f2 .ldxAbsy) := rfl
@[simp] theorem formOf_nop : formOf 0xEA#8 = some (.f0 .nop) := rfl

theorem findRow_mem {op : Byte} {f : Form} {rows : List (Byte × Form)} (h : findRow op rows = some f) :
    (op, f) ∈ rows := by
  induction rows with
  | nil => cases h
  | cons row rows ih =>
    unfold findRow at h
    split at h
    · next e =>
      cases h
      simp [← e]
    · exact List.mem_cons_of_mem _ (ih h)

/-- A handled opcode's format is a row of the table: with `opcodeTable` unfolded, one of twenty cases. -/
theorem formOf_mem {op : Byte} {f : Form} (h : formOf op = some f) : (op, f) ∈ opcodeTable := findRow_mem h

theorem decode_of_formOf_none {op : Byte} (rest : List Byte) (h : formOf op = none) :
    decode (op :: rest) = .error (.unknownOpcode op) := by simp [decode, h]

theorem decode_of_f0 {op : Byte} {i : Instr} (rest : List Byte) (h : formOf op = some (.f0 i)) :
    decode (op :: rest) = .ok (i, rest) := by simp [decode, h]

theorem decode_of_f1 {op b : Byte} {make : Byte → Instr} (rest : List Byte) (h : formOf op = some (.f1 make)) :
    decode (op :: b :: rest) = .ok (make b, rest) := by simp [decode, h]

theorem decode_of_f2 {op lo hi : Byte} {make : Word → Instr} (rest : List Byte) (h : formOf op = some (.f2 make)) :
    decode (op :: lo :: hi :: rest) = .ok (make (Machine.wordOf lo hi), rest) := by simp [decode, h]

/-- With two bytes after the opcode byte the list decoder answers what the three-byte decoder answers. -/
theorem decode_three (op b1 b2 : Byte) (rest : List Byte) :
    (∃ f, formOf op = some f ∧ decode (op :: b1 :: b2 :: rest) =
        .ok (f.fill b1 b2, (b1 :: b2 :: rest).drop (f.length - 1)) ∧ decodeOpcode op b1 b2 = some (f.fill b1 b2)) ∨
      (formOf op = none ∧ decode (op :: b1 :: b2 :: rest) = .error (.unknownOpcode op) ∧
        decodeOpcode op b1 b2 = none) := by
  rcases h : formOf op with _ | f
  · exact .inr ⟨rfl, decode_of_formOf_none _ h, by simp [decodeOpcode, h]⟩
  · refine .inl ⟨f, rfl, ?_, by simp [decodeOpcode, h]⟩
    cases f with
    | f0 i => exact decode_of_f0 _ h
    | f1 make => exact decode_of_f1 _ h
    | f2 make => exact decode_of_f2 _ h

end Sys2Proof
end

