-- ==== Sys2Proof/Laws/Memory.lean ====
section
/-! SUPPORT. The laws of memory: read after write, frames, and that every memory operation keeps the canonical form.
Read after write holds of every list, canonical or not. -/

namespace Sys2Proof.Machine

@[simp] theorem Memory.read_nil (a : Nat) : Memory.read [] a = 0#8 := rfl

theorem Memory.read_cons (c : Host.Cell) (m : Memory) (a : Nat) :
    Memory.read (c :: m) a = if c.1 = a then c.2 else Memory.read m a := rfl

@[simp] theorem Memory.read_zeroed (a : Nat) : Memory.zeroed.read a = 0#8 := rfl

theorem Memory.read_of_not_listed {m : Memory} {a : Nat} (h : ∀ c ∈ m, c.1 ≠ a) : m.read a = 0#8 := by
  induction m with
  | nil => rfl
  | cons c m ih =>
    rw [Memory.read_cons, if_neg (h c (by simp))]
    exact ih fun d hd => h d (by simp [hd])

theorem Memory.forget_not_listed (m : Memory) (a : Nat) : ∀ c ∈ m.forget a, c.1 ≠ a := by
  intro c hc
  simpa [Memory.forget] using (List.mem_filter.mp hc).2

@[simp] theorem Memory.read_forget_same (m : Memory) (a : Nat) : (m.forget a).read a = 0#8 :=
  Memory.read_of_not_listed (m.forget_not_listed a)

theorem Memory.read_forget_other (m : Memory) {a b : Nat} (h : b ≠ a) : (m.forget a).read b = m.read b := by
  induction m with
  | nil => rfl
  | cons c m ih =>
    have step : Memory.forget (c :: m) a = if c.1 = a then Memory.forget m a else c :: Memory.forget m a := by
      by_cases hc : c.1 = a <;> simp [Memory.forget, hc]
    rw [step, Memory.read_cons]
    by_cases hc : c.1 = a
    · rw [if_pos hc, ih, if_neg (show ¬ c.1 = b from fun e => h (e.symm.trans hc))]
    · rw [if_neg hc, Memory.read_cons, ih]

theorem Memory.read_place_same (m : Memory) (a : Nat) (v : Byte) (h : ∀ c ∈ m, c.1 ≠ a) :
    (m.place a v).read a = v := by
  induction m with
  | nil => simp [Memory.place, Memory.read_cons]
  | cons c m ih =>
    unfold Memory.place
    split
    · simp [Memory.read_cons]
    · rw [Memory.read_cons, if_neg (h c (by simp))]
      exact ih fun d hd => h d (by simp [hd])

theorem Memory.read_place_other (m : Memory) {a b : Nat} (v : Byte) (h : b ≠ a) :
    (m.place a v).read b = m.read b := by
  induction m with
  | nil => simp [Memory.place, Memory.read_cons, Ne.symm h]
  | cons c m ih =>
    unfold Memory.place
    split
    · rw [Memory.read_cons, if_neg (Ne.symm h)]
    · simp only [Memory.read_cons, ih]

/-- What was written is read. -/
@[simp] theorem Memory.read_write_same (m : Memory) (a : Nat) (v : Byte) : (m.write a v).read a = v := by
  unfold Memory.write
  split
  · next h => rw [h, Memory.read_forget_same]
  · exact Memory.read_place_same _ _ _ (m.forget_not_listed a)

/-- Every other cell reads as before. -/
theorem Memory.read_write_other (m : Memory) {a b : Nat} (v : Byte) (h : b ≠ a) :
    (m.write a v).read b = m.read b := by
  unfold Memory.write
  split
  · exact m.read_forget_other h
  · rw [Memory.read_place_other _ v h, m.read_forget_other h]

theorem Memory.read_write (m : Memory) (a b : Nat) (v : Byte) :
    (m.write a v).read b = if b = a then v else m.read b := by
  split
  · next h => rw [h, Memory.read_write_same]
  · next h => exact m.read_write_other v h

theorem Memory.wf_zeroed : Memory.zeroed.wf := ⟨List.Pairwise.nil, by simp [Memory.zeroed]⟩

theorem Memory.wf_forget {m : Memory} (a : Nat) (h : m.wf) : (m.forget a).wf :=
  ⟨h.1.filter _, fun c hc => h.2 c (List.mem_of_mem_filter hc)⟩

theorem Memory.mem_place {m : Memory} {a : Nat} {v : Byte} {c : Host.Cell} (h : c ∈ m.place a v) :
    c = (a, v) ∨ c ∈ m := by
  induction m with
  | nil => simpa [Memory.place] using h
  | cons d m ih =>
    unfold Memory.place at h
    split at h
    · simpa using h
    · rcases List.mem_cons.mp h with rfl | h
      · simp
      · rcases ih h with h | h <;> simp [h]

theorem Memory.wf_place {m : Memory} {a : Nat} {v : Byte} (ha : a < Config.cap) (hv : v ≠ 0#8)
    (hn : ∀ c ∈ m, c.1 ≠ a) (h : m.wf) : (m.place a v).wf := by
  constructor
  · induction m with
    | nil => simp [Memory.place]
    | cons d m ih =>
      have hd := List.pairwise_cons.mp h.1
      unfold Memory.place
      split
      · next lt =>
        refine List.pairwise_cons.mpr ⟨fun c hc => ?_, h.1⟩
        rcases List.mem_cons.mp hc with rfl | hc
        · exact lt
        · exact Nat.lt_trans lt (hd.1 c hc)
      · next ge =>
        refine List.pairwise_cons.mpr ⟨fun c hc => ?_, ih (fun c hc => hn c (by simp [hc])) ⟨hd.2, ?_⟩⟩
        · rcases Memory.mem_place hc with rfl | hc
          · have := hn d (by simp)
            exact show d.1 < a by omega
          · exact hd.1 c hc
        · exact fun c hc => h.2 c (by simp [hc])
  · intro c hc
    rcases Memory.mem_place hc with rfl | hc
    · exact ⟨ha, hv⟩
    · exact h.2 c hc

/-- A write below `CAP` keeps the canonical form. -/
theorem Memory.wf_write {m : Memory} {a : Nat} (v : Byte) (ha : a < Config.cap) (h : m.wf) : (m.write a v).wf := by
  unfold Memory.write
  split
  · exact Memory.wf_forget a h
  · next hv => exact Memory.wf_place ha hv (m.forget_not_listed a) (Memory.wf_forget a h)

/-- A memory made from its cells is in canonical form, whatever the cells hold. -/
theorem Memory.wf_ofCells (f : Nat → Byte) : (Memory.ofCells f).wf := by
  unfold Memory.ofCells
  constructor
  · rw [List.pairwise_filterMap]
    refine List.pairwise_lt_range.imp fun {a b} lt c hc d hd => ?_
    split at hc
    · simp at hc
    · split at hd
      · simp at hd
      · cases hc
        cases hd
        exact lt
  · intro c hc
    obtain ⟨a, ha, hc⟩ := List.mem_filterMap.mp hc
    split at hc
    · simp at hc
    · next hv =>
      cases hc
      exact ⟨List.mem_range.mp ha, hv⟩

end Sys2Proof.Machine
end

