-- ==== Sys2Proof/Laws/State.lean ====
section
/-! SUPPORT. One lemma per field per update of the state, all by rfl, so that no later proof unfolds a record update. -/

namespace Sys2Proof.Machine

variable (s : State) (v : Byte) (w : Word) (m : Memory) (n : Nat) (f : Fault)

/-! ### `tick` -/

@[simp] theorem State.tick_pc : (s.tick n).pc = s.pc := rfl
@[simp] theorem State.tick_sp : (s.tick n).sp = s.sp := rfl
@[simp] theorem State.tick_a : (s.tick n).a = s.a := rfl
@[simp] theorem State.tick_x : (s.tick n).x = s.x := rfl
@[simp] theorem State.tick_y : (s.tick n).y = s.y := rfl
@[simp] theorem State.tick_flagC : (s.tick n).flagC = s.flagC := rfl
@[simp] theorem State.tick_flagZ : (s.tick n).flagZ = s.flagZ := rfl
@[simp] theorem State.tick_flagI : (s.tick n).flagI = s.flagI := rfl
@[simp] theorem State.tick_flagD : (s.tick n).flagD = s.flagD := rfl
@[simp] theorem State.tick_flagB : (s.tick n).flagB = s.flagB := rfl
@[simp] theorem State.tick_flagV : (s.tick n).flagV = s.flagV := rfl
@[simp] theorem State.tick_flagN : (s.tick n).flagN = s.flagN := rfl
@[simp] theorem State.tick_mem : (s.tick n).mem = s.mem := rfl
@[simp] theorem State.tick_ready : (s.tick n).ready = s.ready := rfl
@[simp] theorem State.tick_fault : (s.tick n).fault = s.fault := rfl
@[simp] theorem State.tick_cyc : (s.tick n).cyc = s.cyc - n := rfl
@[simp] theorem State.tick_pageCross : (s.tick n).pageCross = s.pageCross := rfl
@[simp] theorem State.tick_free : (s.tick n).free = s.free := rfl

/-! ### `fetched` -/

@[simp] theorem State.fetched_pc : (s.fetched n).pc = s.pc + BitVec.ofNat 16 n := rfl
@[simp] theorem State.fetched_sp : (s.fetched n).sp = s.sp := rfl
@[simp] theorem State.fetched_a : (s.fetched n).a = s.a := rfl
@[simp] theorem State.fetched_x : (s.fetched n).x = s.x := rfl
@[simp] theorem State.fetched_y : (s.fetched n).y = s.y := rfl
@[simp] theorem State.fetched_flagC : (s.fetched n).flagC = s.flagC := rfl
@[simp] theorem State.fetched_flagZ : (s.fetched n).flagZ = s.flagZ := rfl
@[simp] theorem State.fetched_flagI : (s.fetched n).flagI = s.flagI := rfl
@[simp] theorem State.fetched_flagD : (s.fetched n).flagD = s.flagD := rfl
@[simp] theorem State.fetched_flagB : (s.fetched n).flagB = s.flagB := rfl
@[simp] theorem State.fetched_flagV : (s.fetched n).flagV = s.flagV := rfl
@[simp] theorem State.fetched_flagN : (s.fetched n).flagN = s.flagN := rfl
@[simp] theorem State.fetched_mem : (s.fetched n).mem = s.mem := rfl
@[simp] theorem State.fetched_ready : (s.fetched n).ready = s.ready := rfl
@[simp] theorem State.fetched_fault : (s.fetched n).fault = s.fault := rfl
@[simp] theorem State.fetched_cyc : (s.fetched n).cyc = s.cyc - n := rfl
@[simp] theorem State.fetched_pageCross : (s.fetched n).pageCross = s.pageCross := rfl
@[simp] theorem State.fetched_free : (s.fetched n).free = s.free := rfl

/-! ### `setPc` -/

@[simp] theorem State.setPc_pc : (s.setPc w).pc = w := rfl
@[simp] theorem State.setPc_sp : (s.setPc w).sp = s.sp := rfl
@[simp] theorem State.setPc_a : (s.setPc w).a = s.a := rfl
@[simp] theorem State.setPc_x : (s.setPc w).x = s.x := rfl
@[simp] theorem State.setPc_y : (s.setPc w).y = s.y := rfl
@[simp] theorem State.setPc_flagC : (s.setPc w).flagC = s.flagC := rfl
@[simp] theorem State.setPc_flagZ : (s.setPc w).flagZ = s.flagZ := rfl
@[simp] theorem State.setPc_flagI : (s.setPc w).flagI = s.flagI := rfl
@[simp] theorem State.setPc_flagD : (s.setPc w).flagD = s.flagD := rfl
@[simp] theorem State.setPc_flagB : (s.setPc w).flagB = s.flagB := rfl
@[simp] theorem State.setPc_flagV : (s.setPc w).flagV = s.flagV := rfl
@[simp] theorem State.setPc_flagN : (s.setPc w).flagN = s.flagN := rfl
@[simp] theorem State.setPc_mem : (s.setPc w).mem = s.mem := rfl
@[simp] theorem State.setPc_ready : (s.setPc w).ready = s.ready := rfl
@[simp] theorem State.setPc_fault : (s.setPc w).fault = s.fault := rfl
@[simp] theorem State.setPc_cyc : (s.setPc w).cyc = s.cyc := rfl
@[simp] theorem State.setPc_pageCross : (s.setPc w).pageCross = s.pageCross := rfl
@[simp] theorem State.setPc_free : (s.setPc w).free = s.free := rfl

/-! ### `setSp` -/

@[simp] theorem State.setSp_pc : (s.setSp w).pc = s.pc := rfl
@[simp] theorem State.setSp_sp : (s.setSp w).sp = w := rfl
@[simp] theorem State.setSp_a : (s.setSp w).a = s.a := rfl
@[simp] theorem State.setSp_x : (s.setSp w).x = s.x := rfl
@[simp] theorem State.setSp_y : (s.setSp w).y = s.y := rfl
@[simp] theorem State.setSp_flagC : (s.setSp w).flagC = s.flagC := rfl
@[simp] theorem State.setSp_flagZ : (s.setSp w).flagZ = s.flagZ := rfl
@[simp] theorem State.setSp_flagI : (s.setSp w).flagI = s.flagI := rfl
@[simp] theorem State.setSp_flagD : (s.setSp w).flagD = s.flagD := rfl
@[simp] theorem State.setSp_flagB : (s.setSp w).flagB = s.flagB := rfl
@[simp] theorem State.setSp_flagV : (s.setSp w).flagV = s.flagV := rfl
@[simp] theorem State.setSp_flagN : (s.setSp w).flagN = s.flagN := rfl
@[simp] theorem State.setSp_mem : (s.setSp w).mem = s.mem := rfl
@[simp] theorem State.setSp_ready : (s.setSp w).ready = s.ready := rfl
@[simp] theorem State.setSp_fault : (s.setSp w).fault = s.fault := rfl
@[simp] theorem State.setSp_cyc : (s.setSp w).cyc = s.cyc := rfl
@[simp] theorem State.setSp_pageCross : (s.setSp w).pageCross = s.pageCross := rfl
@[simp] theorem State.setSp_free : (s.setSp w).free = s.free := rfl

/-! ### `setMem` -/

@[simp] theorem State.setMem_pc : (s.setMem m).pc = s.pc := rfl
@[simp] theorem State.setMem_sp : (s.setMem m).sp = s.sp := rfl
@[simp] theorem State.setMem_a : (s.setMem m).a = s.a := rfl
@[simp] theorem State.setMem_x : (s.setMem m).x = s.x := rfl
@[simp] theorem State.setMem_y : (s.setMem m).y = s.y := rfl
@[simp] theorem State.setMem_flagC : (s.setMem m).flagC = s.flagC := rfl
@[simp] theorem State.setMem_flagZ : (s.setMem m).flagZ = s.flagZ := rfl
@[simp] theorem State.setMem_flagI : (s.setMem m).flagI = s.flagI := rfl
@[simp] theorem State.setMem_flagD : (s.setMem m).flagD = s.flagD := rfl
@[simp] theorem State.setMem_flagB : (s.setMem m).flagB = s.flagB := rfl
@[simp] theorem State.setMem_flagV : (s.setMem m).flagV = s.flagV := rfl
@[simp] theorem State.setMem_flagN : (s.setMem m).flagN = s.flagN := rfl
@[simp] theorem State.setMem_mem : (s.setMem m).mem = m := rfl
@[simp] theorem State.setMem_ready : (s.setMem m).ready = s.ready := rfl
@[simp] theorem State.setMem_fault : (s.setMem m).fault = s.fault := rfl
@[simp] theorem State.setMem_cyc : (s.setMem m).cyc = s.cyc := rfl
@[simp] theorem State.setMem_pageCross : (s.setMem m).pageCross = s.pageCross := rfl
@[simp] theorem State.setMem_free : (s.setMem m).free = s.free := rfl

/-! ### `setLoadFlags` -/

@[simp] theorem State.setLoadFlags_pc : (s.setLoadFlags v).pc = s.pc := rfl
@[simp] theorem State.setLoadFlags_sp : (s.setLoadFlags v).sp = s.sp := rfl
@[simp] theorem State.setLoadFlags_a : (s.setLoadFlags v).a = s.a := rfl
@[simp] theorem State.setLoadFlags_x : (s.setLoadFlags v).x = s.x := rfl
@[simp] theorem State.setLoadFlags_y : (s.setLoadFlags v).y = s.y := rfl
@[simp] theorem State.setLoadFlags_flagC : (s.setLoadFlags v).flagC = s.flagC := rfl
@[simp] theorem State.setLoadFlags_flagZ : (s.setLoadFlags v).flagZ = zeroOf v := rfl
@[simp] theorem State.setLoadFlags_flagI : (s.setLoadFlags v).flagI = s.flagI := rfl
@[simp] theorem State.setLoadFlags_flagD : (s.setLoadFlags v).flagD = s.flagD := rfl
@[simp] theorem State.setLoadFlags_flagB : (s.setLoadFlags v).flagB = s.flagB := rfl
@[simp] theorem State.setLoadFlags_flagV : (s.setLoadFlags v).flagV = s.flagV := rfl
@[simp] theorem State.setLoadFlags_flagN : (s.setLoadFlags v).flagN = negativeOf v := rfl
@[simp] theorem State.setLoadFlags_mem : (s.setLoadFlags v).mem = s.mem := rfl
@[simp] theorem State.setLoadFlags_ready : (s.setLoadFlags v).ready = s.ready := rfl
@[simp] theorem State.setLoadFlags_fault : (s.setLoadFlags v).fault = s.fault := rfl
@[simp] theorem State.setLoadFlags_cyc : (s.setLoadFlags v).cyc = s.cyc := rfl
@[simp] theorem State.setLoadFlags_pageCross : (s.setLoadFlags v).pageCross = s.pageCross := rfl
@[simp] theorem State.setLoadFlags_free : (s.setLoadFlags v).free = s.free := rfl

/-! ### `setRegA` -/

@[simp] theorem State.setRegA_pc : (s.setReg .a v).pc = s.pc := rfl
@[simp] theorem State.setRegA_sp : (s.setReg .a v).sp = s.sp := rfl
@[simp] theorem State.setRegA_a : (s.setReg .a v).a = v := rfl
@[simp] theorem State.setRegA_x : (s.setReg .a v).x = s.x := rfl
@[simp] theorem State.setRegA_y : (s.setReg .a v).y = s.y := rfl
@[simp] theorem State.setRegA_flagC : (s.setReg .a v).flagC = s.flagC := rfl
@[simp] theorem State.setRegA_flagZ : (s.setReg .a v).flagZ = s.flagZ := rfl
@[simp] theorem State.setRegA_flagI : (s.setReg .a v).flagI = s.flagI := rfl
@[simp] theorem State.setRegA_flagD : (s.setReg .a v).flagD = s.flagD := rfl
@[simp] theorem State.setRegA_flagB : (s.setReg .a v).flagB = s.flagB := rfl
@[simp] theorem State.setRegA_flagV : (s.setReg .a v).flagV = s.flagV := rfl
@[simp] theorem State.setRegA_flagN : (s.setReg .a v).flagN = s.flagN := rfl
@[simp] theorem State.setRegA_mem : (s.setReg .a v).mem = s.mem := rfl
@[simp] theorem State.setRegA_ready : (s.setReg .a v).ready = s.ready := rfl
@[simp] theorem State.setRegA_fault : (s.setReg .a v).fault = s.fault := rfl
@[simp] theorem State.setRegA_cyc : (s.setReg .a v).cyc = s.cyc := rfl
@[simp] theorem State.setRegA_pageCross : (s.setReg .a v).pageCross = s.pageCross := rfl
@[simp] theorem State.setRegA_free : (s.setReg .a v).free = s.free := rfl

/-! ### `setRegX` -/

@[simp] theorem State.setRegX_pc : (s.setReg .x v).pc = s.pc := rfl
@[simp] theorem State.setRegX_sp : (s.setReg .x v).sp = s.sp := rfl
@[simp] theorem State.setRegX_a : (s.setReg .x v).a = s.a := rfl
@[simp] theorem State.setRegX_x : (s.setReg .x v).x = v := rfl
@[simp] theorem State.setRegX_y : (s.setReg .x v).y = s.y := rfl
@[simp] theorem State.setRegX_flagC : (s.setReg .x v).flagC = s.flagC := rfl
@[simp] theorem State.setRegX_flagZ : (s.setReg .x v).flagZ = s.flagZ := rfl
@[simp] theorem State.setRegX_flagI : (s.setReg .x v).flagI = s.flagI := rfl
@[simp] theorem State.setRegX_flagD : (s.setReg .x v).flagD = s.flagD := rfl
@[simp] theorem State.setRegX_flagB : (s.setReg .x v).flagB = s.flagB := rfl
@[simp] theorem State.setRegX_flagV : (s.setReg .x v).flagV = s.flagV := rfl
@[simp] theorem State.setRegX_flagN : (s.setReg .x v).flagN = s.flagN := rfl
@[simp] theorem State.setRegX_mem : (s.setReg .x v).mem = s.mem := rfl
@[simp] theorem State.setRegX_ready : (s.setReg .x v).ready = s.ready := rfl
@[simp] theorem State.setRegX_fault : (s.setReg .x v).fault = s.fault := rfl
@[simp] theorem State.setRegX_cyc : (s.setReg .x v).cyc = s.cyc := rfl
@[simp] theorem State.setRegX_pageCross : (s.setReg .x v).pageCross = s.pageCross := rfl
@[simp] theorem State.setRegX_free : (s.setReg .x v).free = s.free := rfl

/-! ### `setRegY` -/

@[simp] theorem State.setRegY_pc : (s.setReg .y v).pc = s.pc := rfl
@[simp] theorem State.setRegY_sp : (s.setReg .y v).sp = s.sp := rfl
@[simp] theorem State.setRegY_a : (s.setReg .y v).a = s.a := rfl
@[simp] theorem State.setRegY_x : (s.setReg .y v).x = s.x := rfl
@[simp] theorem State.setRegY_y : (s.setReg .y v).y = v := rfl
@[simp] theorem State.setRegY_flagC : (s.setReg .y v).flagC = s.flagC := rfl
@[simp] theorem State.setRegY_flagZ : (s.setReg .y v).flagZ = s.flagZ := rfl
@[simp] theorem State.setRegY_flagI : (s.setReg .y v).flagI = s.flagI := rfl
@[simp] theorem State.setRegY_flagD : (s.setReg .y v).flagD = s.flagD := rfl
@[simp] theorem State.setRegY_flagB : (s.setReg .y v).flagB = s.flagB := rfl
@[simp] theorem State.setRegY_flagV : (s.setReg .y v).flagV = s.flagV := rfl
@[simp] theorem State.setRegY_flagN : (s.setReg .y v).flagN = s.flagN := rfl
@[simp] theorem State.setRegY_mem : (s.setReg .y v).mem = s.mem := rfl
@[simp] theorem State.setRegY_ready : (s.setReg .y v).ready = s.ready := rfl
@[simp] theorem State.setRegY_fault : (s.setReg .y v).fault = s.fault := rfl
@[simp] theorem State.setRegY_cyc : (s.setReg .y v).cyc = s.cyc := rfl
@[simp] theorem State.setRegY_pageCross : (s.setReg .y v).pageCross = s.pageCross := rfl
@[simp] theorem State.setRegY_free : (s.setReg .y v).free = s.free := rfl

/-! ### `unspecified` -/

@[simp] theorem State.unspecified_pc : (s.unspecified).pc = Config.freePc s := rfl
@[simp] theorem State.unspecified_sp : (s.unspecified).sp = Config.freeSp s := rfl
@[simp] theorem State.unspecified_a : (s.unspecified).a = Config.freeA s := rfl
@[simp] theorem State.unspecified_x : (s.unspecified).x = Config.freeX s := rfl
@[simp] theorem State.unspecified_y : (s.unspecified).y = Config.freeY s := rfl
@[simp] theorem State.unspecified_flagC : (s.unspecified).flagC = Config.freeFlagC s := rfl
@[simp] theorem State.unspecified_flagZ : (s.unspecified).flagZ = Config.freeFlagZ s := rfl
@[simp] theorem State.unspecified_flagI : (s.unspecified).flagI = Config.freeFlagI s := rfl
@[simp] theorem State.unspecified_flagD : (s.unspecified).flagD = Config.freeFlagD s := rfl
@[simp] theorem State.unspecified_flagB : (s.unspecified).flagB = Config.freeFlagB s := rfl
@[simp] theorem State.unspecified_flagV : (s.unspecified).flagV = Config.freeFlagV s := rfl
@[simp] theorem State.unspecified_flagN : (s.unspecified).flagN = Config.freeFlagN s := rfl
@[simp] theorem State.unspecified_mem : (s.unspecified).mem = Memory.ofCells (Config.freeCell s) := rfl
@[simp] theorem State.unspecified_ready : (s.unspecified).ready = s.ready := rfl
@[simp] theorem State.unspecified_fault : (s.unspecified).fault = s.fault := rfl
@[simp] theorem State.unspecified_cyc : (s.unspecified).cyc = s.cyc := rfl
@[simp] theorem State.unspecified_pageCross : (s.unspecified).pageCross = s.pageCross := rfl
@[simp] theorem State.unspecified_free : (s.unspecified).free = s.free + 1 := rfl

/-! ### `raise` -/

@[simp] theorem State.raise_pc : (s.raise f).pc = Config.freePc s := rfl
@[simp] theorem State.raise_sp : (s.raise f).sp = Config.freeSp s := rfl
@[simp] theorem State.raise_a : (s.raise f).a = Config.freeA s := rfl
@[simp] theorem State.raise_x : (s.raise f).x = Config.freeX s := rfl
@[simp] theorem State.raise_y : (s.raise f).y = Config.freeY s := rfl
@[simp] theorem State.raise_flagC : (s.raise f).flagC = Config.freeFlagC s := rfl
@[simp] theorem State.raise_flagZ : (s.raise f).flagZ = Config.freeFlagZ s := rfl
@[simp] theorem State.raise_flagI : (s.raise f).flagI = Config.freeFlagI s := rfl
@[simp] theorem State.raise_flagD : (s.raise f).flagD = Config.freeFlagD s := rfl
@[simp] theorem State.raise_flagB : (s.raise f).flagB = Config.freeFlagB s := rfl
@[simp] theorem State.raise_flagV : (s.raise f).flagV = Config.freeFlagV s := rfl
@[simp] theorem State.raise_flagN : (s.raise f).flagN = Config.freeFlagN s := rfl
@[simp] theorem State.raise_mem : (s.raise f).mem = Memory.ofCells (Config.freeCell s) := rfl
@[simp] theorem State.raise_ready : (s.raise f).ready = s.ready := rfl
@[simp] theorem State.raise_fault : (s.raise f).fault = some f := rfl
@[simp] theorem State.raise_cyc : (s.raise f).cyc = 0 := rfl
@[simp] theorem State.raise_pageCross : (s.raise f).pageCross = s.pageCross := rfl
@[simp] theorem State.raise_free : (s.raise f).free = s.free + 1 := rfl

/-! ### `resetOp` -/

@[simp] theorem State.resetOp_pc : (s.resetOp).pc = Config.pcReset := rfl
@[simp] theorem State.resetOp_sp : (s.resetOp).sp = Config.spReset := rfl
@[simp] theorem State.resetOp_a : (s.resetOp).a = 0#8 := rfl
@[simp] theorem State.resetOp_x : (s.resetOp).x = 0#8 := rfl
@[simp] theorem State.resetOp_y : (s.resetOp).y = 0#8 := rfl
@[simp] theorem State.resetOp_flagC : (s.resetOp).flagC = false := rfl
@[simp] theorem State.resetOp_flagZ : (s.resetOp).flagZ = false := rfl
@[simp] theorem State.resetOp_flagI : (s.resetOp).flagI = false := rfl
@[simp] theorem State.resetOp_flagD : (s.resetOp).flagD = false := rfl
@[simp] theorem State.resetOp_flagB : (s.resetOp).flagB = false := rfl
@[simp] theorem State.resetOp_flagV : (s.resetOp).flagV = false := rfl
@[simp] theorem State.resetOp_flagN : (s.resetOp).flagN = false := rfl
@[simp] theorem State.resetOp_mem : (s.resetOp).mem = [] := rfl
@[simp] theorem State.resetOp_ready : (s.resetOp).ready = true := rfl
@[simp] theorem State.resetOp_fault : (s.resetOp).fault = none := rfl
@[simp] theorem State.resetOp_cyc : (s.resetOp).cyc = 0 := rfl
@[simp] theorem State.resetOp_pageCross : (s.resetOp).pageCross = s.pageCross := rfl
@[simp] theorem State.resetOp_free : (s.resetOp).free = s.free := rfl

/-! ### `setCyc` -/

@[simp] theorem State.setCyc_pc (k : Int) : (s.setCyc k).pc = s.pc := rfl
@[simp] theorem State.setCyc_sp (k : Int) : (s.setCyc k).sp = s.sp := rfl
@[simp] theorem State.setCyc_a (k : Int) : (s.setCyc k).a = s.a := rfl
@[simp] theorem State.setCyc_x (k : Int) : (s.setCyc k).x = s.x := rfl
@[simp] theorem State.setCyc_y (k : Int) : (s.setCyc k).y = s.y := rfl
@[simp] theorem State.setCyc_flagC (k : Int) : (s.setCyc k).flagC = s.flagC := rfl
@[simp] theorem State.setCyc_flagZ (k : Int) : (s.setCyc k).flagZ = s.flagZ := rfl
@[simp] theorem State.setCyc_flagI (k : Int) : (s.setCyc k).flagI = s.flagI := rfl
@[simp] theorem State.setCyc_flagD (k : Int) : (s.setCyc k).flagD = s.flagD := rfl
@[simp] theorem State.setCyc_flagB (k : Int) : (s.setCyc k).flagB = s.flagB := rfl
@[simp] theorem State.setCyc_flagV (k : Int) : (s.setCyc k).flagV = s.flagV := rfl
@[simp] theorem State.setCyc_flagN (k : Int) : (s.setCyc k).flagN = s.flagN := rfl
@[simp] theorem State.setCyc_mem (k : Int) : (s.setCyc k).mem = s.mem := rfl
@[simp] theorem State.setCyc_ready (k : Int) : (s.setCyc k).ready = s.ready := rfl
@[simp] theorem State.setCyc_fault (k : Int) : (s.setCyc k).fault = s.fault := rfl
@[simp] theorem State.setCyc_cyc (k : Int) : (s.setCyc k).cyc = k := rfl
@[simp] theorem State.setCyc_pageCross (k : Int) : (s.setCyc k).pageCross = s.pageCross := rfl
@[simp] theorem State.setCyc_free (k : Int) : (s.setCyc k).free = s.free := rfl

/-! ### Registers and flags by name -/

@[simp] theorem State.getRegName_pc : s.getRegName .pc = s.pc.toNat := rfl
@[simp] theorem State.getRegName_sp : s.getRegName .sp = s.sp.toNat := rfl
@[simp] theorem State.getRegName_a : s.getRegName .a = s.a.toNat := rfl
@[simp] theorem State.getRegName_x : s.getRegName .x = s.x.toNat := rfl
@[simp] theorem State.getRegName_y : s.getRegName .y = s.y.toNat := rfl
@[simp] theorem State.setRegName_mem (r : RegName) : (s.setRegName r n).mem = s.mem := by cases r <;> rfl
@[simp] theorem State.setFlag_mem (g : FlagName) (b : Bool) : (s.setFlag g b).mem = s.mem := by cases g <;> rfl
@[simp] theorem State.setRegName_ready (r : RegName) : (s.setRegName r n).ready = s.ready := by cases r <;> rfl
@[simp] theorem State.setFlag_ready (g : FlagName) (b : Bool) : (s.setFlag g b).ready = s.ready := by cases g <;> rfl
@[simp] theorem State.setRegName_fault (r : RegName) : (s.setRegName r n).fault = s.fault := by cases r <;> rfl
@[simp] theorem State.setFlag_fault (g : FlagName) (b : Bool) : (s.setFlag g b).fault = s.fault := by cases g <;> rfl

/-! ### `constructed` -/

variable (policy : PageCrossPolicy) (k : Nat)

@[simp] theorem State.constructed_pc :
    (State.constructed policy k).pc = Config.freePc (State.construction policy k) := rfl
@[simp] theorem State.constructed_sp :
    (State.constructed policy k).sp = Config.freeSp (State.construction policy k) := rfl
@[simp] theorem State.constructed_a :
    (State.constructed policy k).a = Config.freeA (State.construction policy k) := rfl
@[simp] theorem State.constructed_x :
    (State.constructed policy k).x = Config.freeX (State.construction policy k) := rfl
@[simp] theorem State.constructed_y :
    (State.constructed policy k).y = Config.freeY (State.construction policy k) := rfl
@[simp] theorem State.constructed_flagC :
    (State.constructed policy k).flagC = Config.freeFlagC (State.construction policy k) := rfl
@[simp] theorem State.constructed_flagZ :
    (State.constructed policy k).flagZ = Config.freeFlagZ (State.construction policy k) := rfl
@[simp] theorem State.constructed_flagI :
    (State.constructed policy k).flagI = Config.freeFlagI (State.construction policy k) := rfl
@[simp] theorem State.constructed_flagD :
    (State.constructed policy k).flagD = Config.freeFlagD (State.construction policy k) := rfl
@[simp] theorem State.constructed_flagB :
    (State.constructed policy k).flagB = Config.freeFlagB (State.construction policy k) := rfl
@[simp] theorem State.constructed_flagV :
    (State.constructed policy k).flagV = Config.freeFlagV (State.construction policy k) := rfl
@[simp] theorem State.constructed_flagN :
    (State.constructed policy k).flagN = Config.freeFlagN (State.construction policy k) := rfl
@[simp] theorem State.constructed_mem :
    (State.constructed policy k).mem = Memory.ofCells (Config.freeCell (State.construction policy k)) := rfl
@[simp] theorem State.constructed_ready : (State.constructed policy k).ready = false := rfl
@[simp] theorem State.constructed_fault :
    (State.constructed policy k).fault = Config.freeFault (State.construction policy k) := rfl
@[simp] theorem State.constructed_cyc : (State.constructed policy k).cyc = 0 := rfl
@[simp] theorem State.constructed_pageCross : (State.constructed policy k).pageCross = policy := rfl
@[simp] theorem State.constructed_free : (State.constructed policy k).free = k + 1 := rfl

end Sys2Proof.Machine
end

