-- ==== Sys2Proof/Laws/Ops.lean ====
section
/-! SUPPORT. For each shared operation, what it can do, said once: later proofs cite these lemmas in place of unfolding the
operation. -/

namespace Sys2Proof.Machine

variable (s : State)

/-! ### Bytes and words -/

@[simp] theorem wordOf_low_high (w : Word) : wordOf (lowByte w) (highByte w) = w := by
  unfold wordOf lowByte highByte
  ext k hk
  simp only [BitVec.getElem_append, BitVec.getElem_setWidth, BitVec.getLsbD_ushiftRight]
  split
  · rw [BitVec.getLsbD_eq_getElem hk]
  · next h => rw [show 8 + (k - 8) = k by omega, BitVec.getLsbD_eq_getElem hk]

theorem toNat_wordOf (lo hi : Byte) : (wordOf lo hi).toNat = hi.toNat * 256 + lo.toNat := by
  have := lo.isLt
  rw [wordOf, BitVec.toNat_append, ← Nat.shiftLeft_add_eq_or_of_lt this, Nat.shiftLeft_eq]

@[simp] theorem toNat_lowByte (w : Word) : (lowByte w).toNat = w.toNat % 256 := by simp [lowByte]

@[simp] theorem toNat_highByte (w : Word) : (highByte w).toNat = w.toNat / 256 := by
  have := w.isLt
  simp [highByte, Nat.shiftRight_eq_div_pow]
  omega

@[simp] theorem toNat_zext16 (b : Byte) : (zext16 b).toNat = b.toNat := by
  have := b.isLt
  simp [zext16]
  omega

@[simp] theorem lowByte_wordOf (lo hi : Byte) : lowByte (wordOf lo hi) = lo := by
  apply BitVec.eq_of_toNat_eq
  have := lo.isLt
  rw [toNat_lowByte, toNat_wordOf]
  omega

@[simp] theorem highByte_wordOf (lo hi : Byte) : highByte (wordOf lo hi) = hi := by
  apply BitVec.eq_of_toNat_eq
  have := lo.isLt
  rw [toNat_highByte, toNat_wordOf]
  omega

/-! ### Memory level -/

theorem memRead_in_bounds {a : Nat} (h : a < Config.cap) : memRead a s = .ok (s.mem.read a) :=
  if_neg (Nat.not_le.mpr h)

theorem memRead_out_of_bounds {a : Nat} (h : Config.cap ≤ a) : memRead a s = .error (.outOfBounds a) := if_pos h

theorem memWrite_in_bounds {a : Nat} (v : Byte) (h : a < Config.cap) :
    memWrite a v s = .ok (s.setMem (s.mem.write a v)) := if_neg (Nat.not_le.mpr h)

theorem memWrite_out_of_bounds {a : Nat} (v : Byte) (h : Config.cap ≤ a) :
    memWrite a v s = .error (.outOfBounds a) := if_pos h

/-- The only address a word write fails at is 0xFFFF. -/
theorem writeWord_bound (a : Word) : Config.cap ≤ a.toNat + 1 ↔ a = 0xFFFF#16 := by
  have := a.isLt
  unfold Config.cap
  constructor
  · intro h
    apply BitVec.eq_of_toNat_eq
    show a.toNat = 65535
    omega
  · rintro rfl
    decide

theorem writeWord_below_top {a : Word} (w : Word) (h : a ≠ 0xFFFF#16) :
    writeWord a w s =
      .ok ((s.setMem ((s.mem.write a.toNat (lowByte w)).write (a.toNat + 1) (highByte w))).tick 2) :=
  if_neg fun hc => h ((writeWord_bound a).mp hc)

theorem writeWord_top (w : Word) : writeWord 0xFFFF#16 w s = .error (.outOfBounds 0x10000) := rfl

/-- Everything a word write can do. -/
theorem writeWord_cases {a w : Word} {t : State} (h : writeWord a w s = .ok t) :
    a ≠ 0xFFFF#16 ∧
      t = (s.setMem ((s.mem.write a.toNat (lowByte w)).write (a.toNat + 1) (highByte w))).tick 2 := by
  by_cases ha : a = 0xFFFF#16
  · rw [ha, writeWord_top] at h
    cases h
  · rw [writeWord_below_top s w ha] at h
    exact ⟨ha, (Except.ok.inj h).symm⟩

/-! ### CPU primitives -/

@[simp] theorem State.cell_tick (n : Nat) (w : Word) : (s.tick n).cell w = s.cell w := rfl
@[simp] theorem State.cell_fetched (n : Nat) (w : Word) : (s.fetched n).cell w = s.cell w := rfl

@[simp] theorem opcodeFetched_eq : opcodeFetched s = s.fetched 1 := rfl

/-- The operand byte decoded with the instruction is what FetchByte delivers, where memory holds it at `PC`. -/
theorem operandByte_eq_fetchByte {b : Byte} (h : s.cell s.pc = b) : operandByte b s = fetchByte s := by
  rw [fetchByte, h, operandByte]

/-- The operand word decoded with the instruction is what FetchWord delivers, where memory holds its two bytes. -/
theorem operandWord_eq_fetchWord {w : Word} (h : wordOf (s.cell s.pc) (s.cell (s.pc + 1#16)) = w) :
    operandWord w s = fetchWord s := by
  rw [fetchWord, h, operandWord]

theorem readWord_eq (p : Byte) :
    readWord p s = (wordOf (s.cell (zext16 p)) (s.cell (zext16 p + 1#16)), (s.tick 1).tick 1) := rfl

/-! ### Operand forms -/

theorem immediate_eq (b : Byte) : immediate b s = (b, s.fetched 1) := rfl
theorem zeroPage_eq (b : Byte) : zeroPage b s = (zext16 b, s.fetched 1) := rfl
theorem zeroPageX_eq (b : Byte) : zeroPageX b s = (zext16 (b + s.x), (s.fetched 1).tick 1) := rfl
theorem zeroPageY_eq (b : Byte) : zeroPageY b s = (zext16 (b + s.y), (s.fetched 1).tick 1) := rfl
theorem absolute_eq (w : Word) : absolute w s = (w, s.fetched 2) := rfl

/-- The state after the page-cross test differs at most in the counter. -/
theorem tickIfCross_eq (base sum : Word) :
    tickIfCross base sum s = { s with cyc := s.cyc - if pageCross s.pageCross base sum then 1 else 0 } := by
  unfold tickIfCross
  split <;> simp_all [State.tick]

theorem indexed_eq (base : Word) (index : Byte) :
    indexed base index s = (base + zext16 index, tickIfCross base (base + zext16 index) s) := rfl

theorem absoluteX_eq (w : Word) :
    absoluteX w s = (w + zext16 s.x, tickIfCross w (w + zext16 s.x) (s.fetched 2)) := rfl

theorem absoluteY_eq (w : Word) :
    absoluteY w s = (w + zext16 s.y, tickIfCross w (w + zext16 s.y) (s.fetched 2)) := rfl

theorem indirectX_eq (b : Byte) : indirectX b s = readWord (b + s.x) ((s.fetched 1).tick 1) := rfl

theorem indirectY_eq (b : Byte) :
    indirectY b s =
      indexed (readWord b (s.fetched 1)).1 s.y (readWord b (s.fetched 1)).2 := rfl

/-! ### The load template -/

theorem loadImmediate_eq (r : Reg) (p : Byte × State) :
    loadImmediate r p = (p.2.setReg r p.1).setLoadFlags p.1 := rfl

theorem loadFrom_eq (r : Reg) (p : Word × State) :
    loadFrom r p = ((p.2.tick 1).setReg r (p.2.cell p.1)).setLoadFlags (p.2.cell p.1) := rfl

end Sys2Proof.Machine
end

