-- ==== Sys2Proof/Laws/PerInstr.lean ====
section
/-! SUPPORT. Statements made per instruction: `EncodedForm`, that an instruction is well-formed and its encoding is one whole
instruction of one to three bytes (30_encoding.md R80, R81, R83). -/

/-- The instruction is well-formed and its encoding is exactly one instruction, of one to three bytes. -/
def Sys2Proof.Laws.EncodedForm.Statement (i : Sys2Proof.Instr) : Prop :=
  i.wellFormed = true ∧ Sys2Proof.isWholeInstruction (Sys2Proof.encode i) = true ∧
    1 ≤ (Sys2Proof.encode i).length ∧ (Sys2Proof.encode i).length ≤ 3

namespace Sys2Proof.Laws.EncodedForm

theorem nop : Statement .nop := ⟨rfl, rfl, by decide, by decide⟩
theorem ldaIm (b : Byte) : Statement (.ldaIm b) := ⟨rfl, rfl, Nat.le_add_left _ _, Nat.le_of_ble_eq_true rfl⟩
theorem ldaZp (b : Byte) : Statement (.ldaZp b) := ⟨rfl, rfl, Nat.le_add_left _ _, Nat.le_of_ble_eq_true rfl⟩
theorem ldaZpx (b : Byte) : Statement (.ldaZpx b) := ⟨rfl, rfl, Nat.le_add_left _ _, Nat.le_of_ble_eq_true rfl⟩
theorem ldaAbs (w : Word) : Statement (.ldaAbs w) := ⟨rfl, rfl, Nat.le_add_left _ _, Nat.le_of_ble_eq_true rfl⟩
theorem ldaAbsx (w : Word) : Statement (.ldaAbsx w) := ⟨rfl, rfl, Nat.le_add_left _ _, Nat.le_of_ble_eq_true rfl⟩
theorem ldaAbsy (w : Word) : Statement (.ldaAbsy w) := ⟨rfl, rfl, Nat.le_add_left _ _, Nat.le_of_ble_eq_true rfl⟩
theorem ldaIndx (b : Byte) : Statement (.ldaIndx b) := ⟨rfl, rfl, Nat.le_add_left _ _, Nat.le_of_ble_eq_true rfl⟩
theorem ldaIndy (b : Byte) : Statement (.ldaIndy b) := ⟨rfl, rfl, Nat.le_add_left _ _, Nat.le_of_ble_eq_true rfl⟩
theorem ldxIm (b : Byte) : Statement (.ldxIm b) := ⟨rfl, rfl, Nat.le_add_left _ _, Nat.le_of_ble_eq_true rfl⟩
theorem ldxZp (b : Byte) : Statement (.ldxZp b) := ⟨rfl, rfl, Nat.le_add_left _ _, Nat.le_of_ble_eq_true rfl⟩
theorem ldxZpy (b : Byte) : Statement (.ldxZpy b) := ⟨rfl, rfl, Nat.le_add_left _ _, Nat.le_of_ble_eq_true rfl⟩
theorem ldxAbs (w : Word) : Statement (.ldxAbs w) := ⟨rfl, rfl, Nat.le_add_left _ _, Nat.le_of_ble_eq_true rfl⟩
theorem ldxAbsy (w : Word) : Statement (.ldxAbsy w) := ⟨rfl, rfl, Nat.le_add_left _ _, Nat.le_of_ble_eq_true rfl⟩
theorem ldyIm (b : Byte) : Statement (.ldyIm b) := ⟨rfl, rfl, Nat.le_add_left _ _, Nat.le_of_ble_eq_true rfl⟩
theorem ldyZp (b : Byte) : Statement (.ldyZp b) := ⟨rfl, rfl, Nat.le_add_left _ _, Nat.le_of_ble_eq_true rfl⟩
theorem ldyZpx (b : Byte) : Statement (.ldyZpx b) := ⟨rfl, rfl, Nat.le_add_left _ _, Nat.le_of_ble_eq_true rfl⟩
theorem ldyAbs (w : Word) : Statement (.ldyAbs w) := ⟨rfl, rfl, Nat.le_add_left _ _, Nat.le_of_ble_eq_true rfl⟩
theorem ldyAbsx (w : Word) : Statement (.ldyAbsx w) := ⟨rfl, rfl, Nat.le_add_left _ _, Nat.le_of_ble_eq_true rfl⟩
theorem jsr (w : Word) : Statement (.jsr w) := ⟨rfl, rfl, Nat.le_add_left _ _, Nat.le_of_ble_eq_true rfl⟩

end Sys2Proof.Laws.EncodedForm
end

