-- ==== Sys2Proof/Laws/Step.lean ====
section
/-! SUPPORT. What an instruction and a step can do, said once: every claim over all instructions starts from
`exec_next_cases`, and every claim over a step from `step_runnable`, `stepInstr_handled` and `stepInstr_unhandled`. -/

namespace Sys2Proof.Machine

variable {s t u : State}

/-- Two states that differ at most in `PC` and the counter. -/
def State.MovedOnly (s u : State) : Prop := u = { s with pc := u.pc, cyc := u.cyc }

theorem State.MovedOnly.refl (s : State) : s.MovedOnly s := rfl
theorem State.MovedOnly.tick (h : s.MovedOnly u) (n : Nat) : s.MovedOnly (u.tick n) := by
  rw [State.MovedOnly] at *
  rw [h]
  rfl
theorem State.MovedOnly.fetched (h : s.MovedOnly u) (n : Nat) : s.MovedOnly (u.fetched n) := by
  rw [State.MovedOnly] at *
  rw [h]
  rfl
theorem State.MovedOnly.tickIfCross (h : s.MovedOnly u) (base sum : Word) :
    s.MovedOnly (Machine.tickIfCross base sum u) := by
  rw [tickIfCross_eq]
  rw [State.MovedOnly] at *
  rw [h]

/-- What a jump does below the top of memory. -/
theorem jump_below_top (target : Word) (h : s.sp ≠ 0xFFFF#16) :
    jump target s = .ok { s with
      pc := target
      sp := s.sp + 2#16
      mem := (s.mem.write s.sp.toNat (lowByte (s.pc - 1#16))).write (s.sp.toNat + 1) (highByte (s.pc - 1#16))
      cyc := s.cyc - 2 - 1 } := by
  unfold jump
  rw [writeWord_below_top s _ h]
  rfl

/-- What a jump does at the top of memory. -/
theorem jump_top (target : Word) (h : s.sp = 0xFFFF#16) : jump target s = .error (.outOfBounds 0x10000) := by
  unfold jump
  rw [h, writeWord_top]

/-- Everything an instruction that ends in a new state can have done: nothing but move on (NOP); a load; or a jump. -/
theorem exec_next_cases {i : Instr} (h : exec i s = .next t) :
    (i = .nop ∧ s.MovedOnly t) ∨
    (∃ r v u, i ≠ .nop ∧ (∀ w, i ≠ .jsr w) ∧ s.MovedOnly u ∧ t = load r v u) ∨
    (∃ w, i = .jsr w ∧ s.sp ≠ 0xFFFF#16 ∧ jump w ((s.fetched 1).fetched 2) = .ok t) := by
  cases i
  case nop =>
    cases h
    exact .inl ⟨rfl, ((State.MovedOnly.refl s).fetched 1).tick 1⟩
  case jsr w =>
    refine .inr (.inr ⟨w, rfl, ?_, ?_⟩)
    · intro hs
      have e : exec (.jsr w) s = .fault (.outOfBounds 0x10000) := by
        show (match jump w ((s.fetched 1).fetched 2) with
          | .error f => Host.Outcome.fault f
          | .ok t => .next t) = _
        rw [jump_top w (s := (s.fetched 1).fetched 2) hs]
      rw [e] at h
      cases h
    · have h' : (match jump w ((s.fetched 1).fetched 2) with
          | .error f => (Host.Outcome.fault f : Host.Outcome State Fault Refusal)
          | .ok t => .next t) = .next t := h
      split at h'
      · cases h'
      · next e => cases h'; exact e
  all_goals
    right; left
    cases h
  case ldaIm b =>
    exact ⟨.a, _, _, nofun, nofun, ((State.MovedOnly.refl s).fetched 1).fetched 1, rfl⟩
  case ldaZp b =>
    exact ⟨.a, _, _, nofun, nofun, (((State.MovedOnly.refl s).fetched 1).fetched 1).tick 1, rfl⟩
  case ldaZpx b =>
    exact ⟨.a, _, _, nofun, nofun, ((((State.MovedOnly.refl s).fetched 1).fetched 1).tick 1).tick 1, rfl⟩
  case ldaAbs w =>
    exact ⟨.a, _, _, nofun, nofun, (((State.MovedOnly.refl s).fetched 1).fetched 2).tick 1, rfl⟩
  case ldaAbsx w =>
    exact ⟨.a, _, _, nofun, nofun, ((((State.MovedOnly.refl s).fetched 1).fetched 2).tickIfCross _ _).tick 1, rfl⟩
  case ldaAbsy w =>
    exact ⟨.a, _, _, nofun, nofun, ((((State.MovedOnly.refl s).fetched 1).fetched 2).tickIfCross _ _).tick 1, rfl⟩
  case ldaIndx b =>
    exact ⟨.a, _, _, nofun, nofun,
      ((((((State.MovedOnly.refl s).fetched 1).fetched 1).tick 1).tick 1).tick 1).tick 1, rfl⟩
  case ldaIndy b =>
    exact ⟨.a, _, _, nofun, nofun,
      ((((((State.MovedOnly.refl s).fetched 1).fetched 1).tick 1).tick 1).tickIfCross _ _).tick 1, rfl⟩
  case ldxIm b =>
    exact ⟨.x, _, _, nofun, nofun, ((State.MovedOnly.refl s).fetched 1).fetched 1, rfl⟩
  case ldxZp b =>
    exact ⟨.x, _, _, nofun, nofun, (((State.MovedOnly.refl s).fetched 1).fetched 1).tick 1, rfl⟩
  case ldxZpy b =>
    exact ⟨.x, _, _, nofun, nofun, ((((State.MovedOnly.refl s).fetched 1).fetched 1).tick 1).tick 1, rfl⟩
  case ldxAbs w =>
    exact ⟨.x, _, _, nofun, nofun, (((State.MovedOnly.refl s).fetched 1).fetched 2).tick 1, rfl⟩
  case ldxAbsy w =>
    exact ⟨.x, _, _, nofun, nofun, ((((State.MovedOnly.refl s).fetched 1).fetched 2).tickIfCross _ _).tick 1, rfl⟩
  case ldyIm b =>
    exact ⟨.y, _, _, nofun, nofun, ((State.MovedOnly.refl s).fetched 1).fetched 1, rfl⟩
  case ldyZp b =>
    exact ⟨.y, _, _, nofun, nofun, (((State.MovedOnly.refl s).fetched 1).fetched 1).tick 1, rfl⟩
  case ldyZpx b =>
    exact ⟨.y, _, _, nofun, nofun, ((((State.MovedOnly.refl s).fetched 1).fetched 1).tick 1).tick 1, rfl⟩
  case ldyAbs w =>
    exact ⟨.y, _, _, nofun, nofun, (((State.MovedOnly.refl s).fetched 1).fetched 2).tick 1, rfl⟩
  case ldyAbsx w =>
    exact ⟨.y, _, _, nofun, nofun, ((((State.MovedOnly.refl s).fetched 1).fetched 2).tickIfCross _ _).tick 1, rfl⟩

/-! ### The step -/

theorem step_runnable (h : s.Runnable) : step s = stepInstr s := by
  obtain ⟨hr, hf⟩ := h
  simp [step, stepPair, hr, hf]

theorem step_not_ready (h : s.ready = false) : step s = .refused .notReset := by
  simp [step, stepPair, h]

theorem step_latched {f : Fault} (hr : s.ready = true) (hf : s.fault = some f) : step s = .fault f := by
  simp [step, stepPair, hr, hf]

/-- A step that ends in a new state began in a runnable pair. -/
theorem runnable_of_step (h : step s = .next t) : s.Runnable := by
  unfold step stepPair at h
  split at h
  · cases h
  · cases h
  · exact ⟨‹_›, ‹_›⟩

theorem instr_eq_none : s.instr = none ↔ formOf s.opcode = none := by
  simp [State.instr, decodeOpcode]

theorem stepInstr_handled {i : Instr} (h : s.instr = some i) : stepInstr s = exec i s := by
  simp [stepInstr, h]

theorem stepInstr_unhandled (h : s.instr = none) : stepInstr s = .fault (.unknownOpcode s.opcode s.pc) := by
  simp [stepInstr, h]

/-- The instruction at `PC` is what the list decoder reads there. -/
theorem instr_eq_some_iff {i : Instr} : s.instr = some i ↔ ∃ rest, decode s.code = .ok (i, rest) := by
  have h3 := decode_three s.opcode (s.cell (s.pc + 1#16)) (s.cell (s.pc + 2#16)) []
  rcases h3 with ⟨f, _, hd, ho⟩ | ⟨_, hd, ho⟩
  · have hc : decode s.code = _ := hd
    have hi : s.instr = _ := ho
    rw [hc, hi]
    constructor
    · intro h
      exact ⟨_, by rw [Option.some.inj h]⟩
    · rintro ⟨rest, h⟩
      cases h
      rfl
  · have hc : decode s.code = _ := hd
    have hi : s.instr = _ := ho
    rw [hc, hi]
    constructor
    · nofun
    · rintro ⟨rest, h⟩
      cases h

/-! ### The loop -/

@[simp] theorem loopWhile_zero : loopWhile 0 s = .next s := rfl

theorem loopWhile_spent (k : Nat) (h : ¬ 0 < s.cyc) : loopWhile k s = .next s := by
  cases k with
  | zero => rfl
  | succ k => simp [loopWhile, h]

theorem loopWhile_next (k : Nat) (h : 0 < s.cyc) (hs : step s = .next t) : loopWhile (k + 1) s = loopWhile k t := by
  have hs' : stepPair s = .next t := hs
  simp [loopWhile, h, hs']

theorem loopWhile_fault {f : Fault} (k : Nat) (h : 0 < s.cyc) (hs : step s = .fault f) :
    loopWhile (k + 1) s = .fault f := by
  have hs' : stepPair s = .fault f := hs
  simp [loopWhile, h, hs']

theorem runExec_runnable (h : s.Runnable) (n : Int) : runExec n s = endCall n s (runLoop (s.setCyc n)) := by
  unfold runExec
  rw [h.1, h.2]

theorem runExec_not_ready (h : s.ready = false) (n : Int) : runExec n s = (.refused .notReset, s) := by
  unfold runExec
  rw [h]

theorem runExec_latched {f : Fault} (hr : s.ready = true) (hf : s.fault = some f) (n : Int) :
    runExec n s = (.faulted f, s) := by
  unfold runExec
  rw [hr, hf]

end Sys2Proof.Machine
end

