-- ==== Sys2Proof/Tests/Slice0.lean ====
section
/-! SUPPORT. Tests. Expected results come from spec/95_test_vectors.md and the examples and corner cases of the rules; each
test names its source. Then one witness for the hypotheses of each statement. -/

/-- The state with a cell poked, for the tests' start states. -/
def Sys2Proof.Machine.State.poked (s : Sys2Proof.Machine.State) (a : Nat) (v : Sys2Proof.Byte) :
    Sys2Proof.Machine.State :=
  { s with mem := s.mem.write a v }

namespace Sys2Proof.Tests

open Sys2Proof.Machine Sys2Proof.Claims

/-! ### Well-formedness: each check refuses an ill-formed term -/

/-- 30_encoding.md R80: no opcode byte. -/
theorem test_wellformed_no_opcode : isWholeInstruction [] = false ∧ hasOpcodeByte [] = false := by decide
/-- 30_encoding.md R86: 0x00 is unhandled. -/
theorem test_wellformed_unhandled : isWholeInstruction [0x00#8] = false ∧ opcodeHandled [0x00#8] = false := by decide
/-- 30_encoding.md R83: LDA_IM has two bytes, not one and not three. -/
theorem test_wellformed_length : lengthFits [0xA9#8] = false ∧ lengthFits [0xA9#8, 0#8, 0#8] = false ∧
    lengthFits [0xA9#8, 0#8] = true := by decide
/-- 30_encoding.md R83: JSR has three bytes. -/
theorem test_wellformed_jsr_truncated : isWholeInstruction [0x20#8, 0x42#8] = false ∧
    isWholeInstruction [0x20#8, 0x42#8, 0x42#8] = true := by decide
/-- 00_scope.md R6: a register takes a value of its width, a flag 0 or 1. -/
theorem test_wellformed_host_values :
    (hostOp (.writeReg .x 256) State.reset).1 = .refused .valueOutOfRange ∧
    (hostOp (.writeReg .pc 65536) State.reset).1 = .refused .valueOutOfRange ∧
    (hostOp (.writeFlag .c 2) State.reset).1 = .refused .valueOutOfRange := by decide

/-! ### Decoding: a word of every row, written out from 30_encoding.md R81 and R84 -/

theorem test_decode_nop : decodeTableWord 8 0xEA = some .nop := by decide
theorem test_decode_ldaIm : decodeTableWord 16 0x84A9 = some (.ldaIm 0x84#8) := by decide
theorem test_decode_ldaZp : decodeTableWord 16 0x42A5 = some (.ldaZp 0x42#8) := by decide
theorem test_decode_ldaZpx : decodeTableWord 16 0x80B5 = some (.ldaZpx 0x80#8) := by decide
theorem test_decode_ldaAbs : decodeTableWord 24 0x4480AD = some (.ldaAbs 0x4480#16) := by decide
theorem test_decode_ldaAbsx : decodeTableWord 24 0x4402BD = some (.ldaAbsx 0x4402#16) := by decide
theorem test_decode_ldaAbsy : decodeTableWord 24 0x4402B9 = some (.ldaAbsy 0x4402#16) := by decide
theorem test_decode_ldaIndx : decodeTableWord 16 0x02A1 = some (.ldaIndx 0x02#8) := by decide
theorem test_decode_ldaIndy : decodeTableWord 16 0x10B1 = some (.ldaIndy 0x10#8) := by decide
theorem test_decode_ldxIm : decodeTableWord 16 0x04A2 = some (.ldxIm 0x04#8) := by decide
theorem test_decode_ldxZp : decodeTableWord 16 0x42A6 = some (.ldxZp 0x42#8) := by decide
theorem test_decode_ldxZpy : decodeTableWord 16 0x80B6 = some (.ldxZpy 0x80#8) := by decide
theorem test_decode_ldxAbs : decodeTableWord 24 0x3000AE = some (.ldxAbs 0x3000#16) := by decide
theorem test_decode_ldxAbsy : decodeTableWord 24 0x30F8BE = some (.ldxAbsy 0x30F8#16) := by decide
theorem test_decode_ldyIm : decodeTableWord 16 0xFFA0 = some (.ldyIm 0xFF#8) := by decide
theorem test_decode_ldyZp : decodeTableWord 16 0x00A4 = some (.ldyZp 0x00#8) := by decide
theorem test_decode_ldyZpx : decodeTableWord 16 0xF0B4 = some (.ldyZpx 0xF0#8) := by decide
theorem test_decode_ldyAbs : decodeTableWord 24 0xFFFEAC = some (.ldyAbs 0xFFFE#16) := by decide
theorem test_decode_ldyAbsx : decodeTableWord 24 0x20FFBC = some (.ldyAbsx 0x20FF#16) := by decide
theorem test_decode_jsr : decodeTableWord 24 0x123420 = some (.jsr 0x1234#16) := by decide
/-- 30_encoding.md R86: BRK, RTS and JMP of a MOS 6502 do not exist here. -/
theorem test_decode_unhandled : decodeTableWord 8 0x00 = none ∧ decodeTableWord 8 0x60 = none ∧
    decodeTableWord 8 0x4C = none := by decide
/-- The bits above `nbits` are 0: the operand word of a bare opcode is zero. -/
theorem test_decode_bare_opcode : decodeTableWord 8 0x123420 = some (.jsr 0x0000#16) := by decide
/-- The list decoder names what is missing (30_encoding.md R83, R86). -/
theorem test_decode_errors : decode [] = .error .truncated ∧ decode [0xA9#8] = .error .truncated ∧
    decode [0x20#8, 0x34#8] = .error .truncated ∧ decode [0xFE#8, 0x20#8] = .error (.unknownOpcode 0xFE#8) :=
  ⟨rfl, rfl, rfl, rfl⟩

/-! ### One step on a small state -/

/-- The reset state with bytes at an address, and `PC` there. -/
def codeAt (w : Word) (bytes : List Byte) : State :=
  { State.reset with pc := w, mem := placeBytes w bytes [] }

/-- The reset state with a program at its entry point 0xFFFC. -/
def code (bytes : List Byte) : State := codeAt 0xFFFC#16 bytes

/-- The state with all seven flags set. -/
def flagsSet (s : State) : State :=
  { s with
    flagC := true, flagZ := true, flagI := true, flagD := true, flagB := true, flagV := true, flagN := true }

/-- What a test looks at in the state a step ends in. -/
def look {α : Type} (s : State) (f : State → α) : Option α :=
  match step s with
  | .next t => some (f t)
  | .fault _ => none
  | .refused _ => none

/-- The five flags no load touches. -/
def quietFlags (t : State) : Bool := t.flagC && t.flagI && t.flagD && t.flagB && t.flagV

/-- T-NOP-3: a NOP keeps Z = N = 1 and costs 2. -/
theorem test_nop_flags : look (flagsSet (code [0xEA#8])) (fun t => (t.pc, t.cyc, t.flagZ, t.flagN, quietFlags t)) =
    some (0xFFFD#16, -2, true, true, true) := by decide
/-- T-NOP-4: a NOP at 0xFFFF leaves PC = 0x0000. -/
theorem test_nop_wraps : look (codeAt 0xFFFF#16 [0xEA#8]) (fun t => t.pc) = some 0x0000#16 := by decide
/-- S1. -/
theorem test_lda_im : look (code [0xA9#8, 0x84#8]) (fun t => (t.a, t.flagZ, t.flagN, t.pc, t.cyc)) =
    some (0x84#8, false, true, 0xFFFE#16, -2) := by decide
/-- T-LDA-1: the five other flags stay 1, Z = 1, N = 0. -/
theorem test_lda_im_zero : look (flagsSet (code [0xA9#8, 0x00#8])) (fun t => (t.a, t.flagZ, t.flagN, quietFlags t)) =
    some (0x00#8, true, false, true) := by decide
/-- S2. -/
theorem test_lda_zp : look ((code [0xA5#8, 0x42#8]).poked 0x0042 0x37#8) (fun t => (t.a, t.flagN, t.cyc)) =
    some (0x37#8, false, -3) := by decide
/-- S3: (0x80 + 0xFF) mod 256 = 0x7F, not 0x17F. -/
theorem test_lda_zpx_wraps :
    look { (((code [0xB5#8, 0x80#8]).poked 0x007F 0x37#8).poked 0x017F 0x99#8) with x := 0xFF#8 }
      (fun t => (t.a, t.cyc, t.x)) = some (0x37#8, -4, 0xFF#8) := by decide
/-- T-LDA-10: operand bytes 80 44 form 0x4480. -/
theorem test_lda_abs : look ((code [0xAD#8, 0x80#8, 0x44#8]).poked 0x4480 0x37#8) (fun t => (t.a, t.pc, t.cyc)) =
    some (0x37#8, 0xFFFF#16, -4) := by decide
/-- S5 and T-LDA-13: 0x44FF + 1 crosses under TRUE_PAGE only. -/
theorem test_lda_absx_cross :
    let s := { (code [0xBD#8, 0xFF#8, 0x44#8]).poked 0x4500 0x37#8 with x := 0x01#8 }
    look s (fun t => (t.a, t.cyc)) = some (0x37#8, -5) ∧
    look { s with pageCross := .refApprox } (fun t => (t.a, t.cyc)) = some (0x37#8, -4) := by decide
/-- T-LDA-14: 0x4400 + 0xFF crosses under REF_APPROX only. -/
theorem test_lda_absx_index_ff :
    let s := { (code [0xBD#8, 0x00#8, 0x44#8]).poked 0x44FF 0x37#8 with x := 0xFF#8 }
    look s (fun t => (t.a, t.cyc)) = some (0x37#8, -4) ∧
    look { s with pageCross := .refApprox } (fun t => (t.a, t.cyc)) = some (0x37#8, -5) := by decide
/-- T-LDA-18: ABSY uses Y, not X. -/
theorem test_lda_absy_uses_y :
    look { ((code [0xB9#8, 0x00#8, 0x30#8]).poked 0x3001 0x11#8).poked 0x3002 0x22#8 with x := 0x01#8, y := 0x02#8 }
      (fun t => (t.a, t.cyc)) = some (0x22#8, -4) := by decide
/-- T-LDA-20: the pointer's address wraps in the zero page. -/
theorem test_lda_indx_wraps :
    look { ((code [0xA1#8, 0xFE#8]).poked 0x0003 0x80#8).poked 0x8000 0x37#8 with x := 0x04#8 }
      (fun t => (t.a, t.cyc)) = some (0x37#8, -6) := by decide
/-- T-LDA-21: a pointer at 0x00FF takes its high byte from 0x0100. -/
theorem test_lda_indx_pointer_at_ff :
    look (((((code [0xA1#8, 0xFF#8]).poked 0x00FF 0x34#8).poked 0x0100 0x12#8).poked 0x0000 0x56#8).poked 0x1234 0xAB#8)
      (fun t => (t.a, t.flagN)) = some (0xAB#8, true) := by decide
/-- T-LDA-27: pointer 0xFFFF with Y = 2 reads 0x0001; 6 cycles under TRUE_PAGE, 5 under REF_APPROX. -/
theorem test_lda_indy_wraps :
    let s := { (((code [0xB1#8, 0x10#8]).poked 0x0010 0xFF#8).poked 0x0011 0xFF#8).poked 0x0001 0x42#8 with y := 0x02#8 }
    look s (fun t => (t.a, t.cyc)) = some (0x42#8, -6) ∧
    look { s with pageCross := .refApprox } (fun t => (t.a, t.cyc)) = some (0x42#8, -5) := by decide
/-- T-LDA-26: INDY, a pointer at 0x00FF. -/
theorem test_lda_indy_pointer_at_ff :
    look { (((code [0xB1#8, 0xFF#8]).poked 0x00FF 0x34#8).poked 0x0100 0x12#8).poked 0x1235 0xAB#8 with y := 0x01#8 }
      (fun t => (t.a, t.cyc)) = some (0xAB#8, -5) := by decide
/-- T-LDX-2. -/
theorem test_ldx_im_zero : look { flagsSet (code [0xA2#8, 0x00#8]) with x := 0x07#8 }
      (fun t => (t.x, t.flagZ, t.flagN, quietFlags t)) = some (0x00#8, true, false, true) := by decide
/-- T-LDX-3. -/
theorem test_ldx_zp : look ((code [0xA6#8, 0x42#8]).poked 0x0042 0xF0#8) (fun t => (t.x, t.flagN, t.cyc)) =
    some (0xF0#8, true, -3) := by decide
/-- T-LDX-5: ZPY indexes by Y, not by X. -/
theorem test_ldx_zpy_uses_y :
    look { ((code [0xB6#8, 0x10#8]).poked 0x0015 0x21#8).poked 0x0070 0x99#8 with x := 0x60#8, y := 0x05#8 }
      (fun t => (t.x, t.cyc)) = some (0x21#8, -4) := by decide
/-- T-LDX-6. -/
theorem test_ldx_abs : look ((code [0xAE#8, 0x00#8, 0x30#8]).poked 0x3000 0x80#8) (fun t => (t.x, t.flagN, t.pc)) =
    some (0x80#8, true, 0xFFFF#16) := by decide
/-- T-LDX-7. -/
theorem test_ldx_absy_cross :
    let s := { (code [0xBE#8, 0xF8#8, 0x30#8]).poked 0x3108 0x01#8 with y := 0x10#8 }
    look s (fun t => (t.x, t.cyc)) = some (0x01#8, -5) ∧
    look { s with pageCross := .refApprox } (fun t => (t.x, t.cyc)) = some (0x01#8, -4) := by decide
/-- T-LDY-1. -/
theorem test_ldy_im : look (code [0xA0#8, 0xFF#8]) (fun t => (t.y, t.flagZ, t.flagN, t.a, t.x)) =
    some (0xFF#8, false, true, 0x00#8, 0x00#8) := by decide
/-- T-LDY-2. -/
theorem test_ldy_zp_zero : look { code [0xA4#8, 0x00#8] with y := 0x03#8 } (fun t => (t.y, t.flagZ, t.cyc)) =
    some (0x00#8, true, -3) := by decide
/-- T-LDY-3: (0xF0 + 0x20) mod 256 = 0x10. -/
theorem test_ldy_zpx_wraps :
    look { ((code [0xB4#8, 0xF0#8]).poked 0x0010 0x7F#8).poked 0x0110 0x99#8 with x := 0x20#8 }
      (fun t => (t.y, t.flagN)) = some (0x7F#8, false) := by decide
/-- P3: LDY_ABS 0xFFFE at 0x0002 reads the program's own byte. -/
theorem test_ldy_abs : look ((codeAt 0x0002#16 [0xAC#8, 0xFE#8, 0xFF#8]).poked 0xFFFE 0xB5#8)
      (fun t => (t.y, t.pc, t.flagN)) = some (0xB5#8, 0x0005#16, true) := by decide
/-- T-LDY-5. -/
theorem test_ldy_absx_cross :
    let s := { (code [0xBC#8, 0xFF#8, 0x20#8]).poked 0x2100 0x80#8 with x := 0x01#8 }
    look s (fun t => (t.y, t.cyc)) = some (0x80#8, -5) ∧
    look { s with pageCross := .refApprox } (fun t => (t.y, t.cyc)) = some (0x80#8, -4) := by decide
/-- T-JSR-2: operand byte order, return address, cost. -/
theorem test_jsr : look (code [0x20#8, 0x34#8, 0x12#8])
      (fun t => (t.pc, t.sp, t.mem.read 0x0100, t.mem.read 0x0101, t.cyc)) =
    some (0x1234#16, 0x0102#16, 0xFE#8, 0xFF#8, -6) := by decide
/-- T-JSR-6 and T-JSR-3: the operand straddles the top of memory; SP wraps from 0xFFFE to 0x0000. -/
theorem test_jsr_edges :
    look ((codeAt 0xFFFE#16 [0x20#8, 0x00#8, 0x30#8])) (fun t => (t.pc, t.mem.read 0x0100, t.mem.read 0x0101)) =
      some (0x3000#16, 0x00#8, 0x00#8) ∧
    look { code [0x20#8, 0x42#8, 0x42#8] with sp := 0xFFFE#16 }
        (fun t => (t.sp, t.mem.read 0xFFFE, t.mem.read 0xFFFF)) = some (0x0000#16, 0xFE#8, 0xFF#8) := by decide

/-! ### Exec, faults and the host -/

/-- T-JSR-4. -/
theorem test_exec_jsr_top :
    (runExec 6 { code [0x20#8, 0x42#8, 0x42#8] with sp := 0xFFFF#16 }).1 = .faulted (.outOfBounds 0x10000) := by decide
/-- T-EXEC-1, T-EXEC-2, T-EXEC-3. -/
theorem test_exec_budgets : (runExec 0 (code [0xA9#8, 0x84#8])).1 = .ok 0 ∧
    (runExec (-3) (code [0xA9#8, 0x84#8])).1 = .ok 0 ∧ (runExec 1 (code [0xA9#8, 0x84#8])).1 = .ok 2 := by decide
/-- T-EXEC-5. -/
theorem test_exec_runs_off : (runExec 3 (code [0xA9#8, 0x84#8])).1 = .faulted (.unknownOpcode 0x00#8 0xFFFE#16) := by
  decide
/-- S4: JSR and LDA in one call of 8 cycles. -/
theorem test_exec_jsr_then_lda :
    let r := runExec 8 (((code [0x20#8, 0x42#8, 0x42#8]).poked 0x4242 0xA9#8).poked 0x4243 0x84#8)
    r.1 = .ok 8 ∧ r.2.a = 0x84#8 ∧ r.2.pc = 0x4244#16 ∧ r.2.sp = 0x0102#16 := by decide
/-- T-EXEC-10: a call after a fault returns it again. -/
theorem test_exec_after_fault : (runExec 5 { State.reset with fault := some (.unknownOpcode 0x00#8 0xFFFC#16) }).1 =
    .faulted (.unknownOpcode 0x00#8 0xFFFC#16) := by decide
/-- T-EXEC-11: a call before reset is refused. -/
theorem test_exec_before_reset (p : PageCrossPolicy) (k : Nat) :
    (runExec 2 (State.constructed p k)).1 = .refused .notReset := rfl
/-- P4a: the JSR's own return address is the next opcode fetched, 0xFE. -/
theorem test_exec_own_stack :
    (runExec 7 (code [0x20#8, 0x00#8, 0x01#8])).1 = .faulted (.unknownOpcode 0xFE#8 0x0100#16) := by decide
/-- T-MEM-2, T-MEM-3, T-MEM-4. -/
theorem test_host_memory :
    (hostOp (.peek 0x1234) (hostOp (.poke 0x1234 0xAB#8) State.reset).2).1 = .value 0xAB ∧
    (hostOp (.peek 0x1233) (hostOp (.poke 0x1234 0xAB#8) State.reset).2).1 = .value 0x00 ∧
    hostOp (.poke 65536 0x01#8) State.reset = (.fault (.outOfBounds 65536), State.reset) ∧
    (hostOp (.peek 65535) (hostOp (.poke 65535 0x7E#8) State.reset).2).1 = .value 0x7E := by decide
/-- The table of 95_test_vectors.md 2.8. -/
theorem test_page_cross :
    [(0x4480#16, 0x4481#16), (0x4402#16, 0x4501#16), (0x44FF#16, 0x4500#16), (0x4400#16, 0x44FF#16),
      (0x4401#16, 0x4500#16), (0x4480#16, 0x4500#16), (0x4400#16, 0x4400#16), (0xFFFF#16, 0x0001#16),
      (0xFF00#16, 0xFFFF#16), (0xFF01#16, 0x0000#16)].map
        (fun p => (pageCross .truePage p.1 p.2, pageCross .refApprox p.1 p.2)) =
    [(false, false), (true, true), (true, false), (false, true), (true, true), (true, false), (false, false),
      (true, false), (false, true), (true, true)] := by decide
/-- 70_reset_and_hazards.md R233: nothing installed. -/
theorem test_step_from_reset : step State.reset = .fault (.unknownOpcode 0x00#8 0xFFFC#16) := rfl
/-- A placed word runs as the first instruction after reset: LDA_IM with operand 0. -/
theorem test_placed_word : look (State.reset.withFetchWord 8 0xA9) (fun t => (t.a, t.flagZ, t.pc)) =
    some (0x00#8, true, 0xFFFE#16) := by decide

/-! ### Witnesses: the hypotheses of each statement hold together somewhere -/

/-- A JSR at the entry point. -/
def jsrState : State := code [0x20#8, 0x00#8, 0x01#8]
/-- An LDA_IM 0x84 at the entry point. -/
def ldaState : State := code [0xA9#8, 0x84#8]

theorem jsrState_reads : jsrState.Runnable ∧ jsrState.SpEven ∧ jsrState.MemoryCanonical ∧ jsrState.CanStep := by decide
theorem ldaState_reads : ldaState.Runnable ∧ ldaState.SpEven ∧ ldaState.MemoryCanonical ∧ ldaState.CanStep := by decide

theorem witness_DecodedBytesAreTheEncoding :
    decode [0x20#8, 0x34#8, 0x12#8, 0xEA#8] = .ok (.jsr 0x1234#16, [0xEA#8]) := rfl
theorem witness_OtherOpcodesAreUnhandled :
    State.reset.Runnable ∧ State.reset.mem.read State.reset.pc.toNat ∉ handledOpcodes := by decide
theorem witness_StepRunsDecodedInstruction : ldaState.Runnable ∧
    decode [ldaState.mem.read ldaState.pc.toNat, ldaState.mem.read ((ldaState.pc.toNat + 1) % 65536),
      ldaState.mem.read ((ldaState.pc.toNat + 2) % 65536)] = .ok (.ldaIm 0x84#8, [0x00#8]) := ⟨by decide, rfl⟩
theorem witness_JsrResult : jsrState.sp ≠ 0xFFFF#16 ∧ { jsrState with sp := 0xFFFE#16 }.sp ≠ 0xFFFF#16 ∧
    { jsrState with sp := 0xFFFF#16 }.sp = 0xFFFF#16 := by decide
theorem witness_JsrAtTopOfMemoryFaults : (0 : Int) < 1 ∧ { jsrState with sp := 0xFFFF#16 }.Runnable ∧
    { jsrState with sp := 0xFFFF#16 }.mem.read jsrState.pc.toNat = 0x20#8 ∧
    { jsrState with sp := 0xFFFF#16 }.sp = 0xFFFF#16 := by decide
theorem witness_JsrAtTopOfMemoryFaults_even : jsrState.SpEven ∧ ∃ t, step jsrState = .next t := ⟨by decide, _, rfl⟩
theorem witness_LoadFlagsFollowTheValue : (0x00#8).toNat = 0 ∧ (1 ≤ (0x01#8).toNat ∧ (0x01#8).toNat ≤ 0x7F) ∧
    (1 ≤ (0x7F#8).toNat ∧ (0x7F#8).toNat ≤ 0x7F) ∧ 0x80 ≤ (0x80#8).toNat ∧ 0x80 ≤ (0xFF#8).toNat := by decide
/-- NOP, a load and JSR each end in a next state: the hypothesis of the statements over all instructions. -/
theorem witness_exec_next : exec .nop State.reset = .next { State.reset with pc := 0xFFFD#16, cyc := -2 } ∧
    exec (.ldaIm 0x84#8) State.reset = .next (loadedA State.reset 0x84#8 2 2) ∧
    ∃ t, exec (.jsr 0x1234#16) State.reset = .next t := ⟨rfl, rfl, _, rfl⟩
theorem witness_FlagsOutsideLoadsAreKept : destination .nop = none ∧ destination (.jsr 0x1234#16) = none ∧
    exec .nop State.reset = .next { State.reset with pc := 0xFFFD#16, cyc := -2 } := ⟨rfl, rfl, rfl⟩
theorem witness_RegistersChangeOnlyByTheirLoads : destination (.ldaIm 0x84#8) ≠ some .x ∧
    destination (.ldaIm 0x84#8) ≠ some .y ∧ destination .nop ≠ some .a ∧
    exec (.ldaIm 0x84#8) State.reset = .next (loadedA State.reset 0x84#8 2 2) := ⟨nofun, nofun, nofun, rfl⟩
theorem witness_OnlyJsrWritesMemoryAndSp : (∀ w, (.nop : Instr) ≠ .jsr w) ∧
    exec .nop State.reset = .next { State.reset with pc := 0xFFFD#16, cyc := -2 } ∧
    ∃ t, exec (.jsr 0x1234#16) State.reset = .next t := ⟨nofun, rfl, _, rfl⟩
theorem witness_ControlFlowIsSequentialButForJsr : (∀ w, (.ldaIm 0x84#8 : Instr) ≠ .jsr w) ∧
    exec (.ldaIm 0x84#8) State.reset = .next (loadedA State.reset 0x84#8 2 2) ∧
    ∃ t, exec (.jsr 0x1234#16) State.reset = .next t := ⟨nofun, rfl, _, rfl⟩
theorem witness_InstructionCosts : ∃ t, exec (.ldaAbsx 0x44FF#16) { State.reset with x := 0x01#8 } = .next t := ⟨_, rfl⟩
theorem witness_PageCrossPolicies : (0x0000#16).toNat = ((0xFF01#16).toNat + (0xFF#8).toNat) % 65536 ∧
    (0x44FF#16).toNat = ((0x4401#16).toNat + (0xFE#8).toNat) % 65536 := by decide
theorem witness_MemoryAccessIsBoundsChecked : 65536 ≤ 65536 ∧ 65535 < 65536 := by decide
theorem witness_PokeThenPeek : 65535 < 65536 ∧ 65536 ≤ 65536 := by decide
theorem witness_WordWriteIsLittleEndian : (0xFFFE#16).toNat + 1 < 65536 ∧ 65536 ≤ (0xFFFF#16).toNat + 1 := by decide
theorem witness_StepKeepsMemoryCanonical : jsrState.MemoryCanonical ∧ ∃ t, step jsrState = .next t :=
  ⟨by decide, _, rfl⟩
theorem witness_HostOpsKeepMemoryCanonical : jsrState.MemoryCanonical := by decide
theorem witness_CanonicalMemoriesAreTheirReads : Memory.wf [(0x10, 0x01#8), (0xFFFF, 0x02#8)] := by decide
theorem witness_SpStaysEven : jsrState.SpEven ∧ jsrState.Runnable ∧ (∃ t, step jsrState = .next t) ∧
    State.reset.SpEven ∧ State.reset.Runnable ∧ step State.reset = .fault (.unknownOpcode 0x00#8 0xFFFC#16) :=
  ⟨by decide, by decide, ⟨_, rfl⟩, by decide, by decide, rfl⟩
theorem witness_StepCompletesExactlyWhen : jsrState.Runnable := by decide
theorem witness_OnlyTwoFaults : State.reset.Runnable := by decide
theorem witness_UnrunnablePairDoesNothing : { State.reset with ready := false }.ready = false ∧
    { State.reset with fault := some (.outOfBounds 0x10000) }.ready = true ∧
    { State.reset with fault := some (.outOfBounds 0x10000) }.fault = some (.outOfBounds 0x10000) := by decide
theorem witness_FaultLatchesUntilReset : State.reset.Runnable ∧
    (runExec 1 State.reset).1 = .faulted (.unknownOpcode 0x00#8 0xFFFC#16) ∧
    { State.reset with fault := some (.outOfBounds 0x10000) }.fault = some (.outOfBounds 0x10000) ∧
    HostOp.memInit ≠ HostOp.reset ∧ State.reset.fault = none ∧ (∀ n, HostOp.memInit ≠ HostOp.exec n) :=
  ⟨by decide, by decide, by decide, by decide, rfl, nofun⟩
theorem witness_ExecIsTheWhileLoop : { State.reset with ready := false }.ready = false ∧ ldaState.Runnable ∧
    (∃ t, runLoop { ldaState with cyc := 2 } = .next t) ∧ (∃ f, runLoop { ldaState with cyc := 3 } = .fault f) ∧
    { ldaState with fault := some (.outOfBounds 0x10000) }.fault = some (.outOfBounds 0x10000) :=
  ⟨rfl, by decide, ⟨_, rfl⟩, ⟨_, rfl⟩, rfl⟩
theorem witness_ExecCyclesUsedBounds : (1 : Int) ≤ 1 ∧ ldaState.Runnable := by decide
theorem witness_NonPositiveBudgetRunsNothing : (0 : Int) ≤ 0 ∧ (-3 : Int) ≤ 0 ∧ ldaState.Runnable := by decide
theorem witness_ExecOneRunsOneInstruction : ldaState.Runnable ∧
    decode [ldaState.mem.read ldaState.pc.toNat, ldaState.mem.read ((ldaState.pc.toNat + 1) % 65536),
      ldaState.mem.read ((ldaState.pc.toNat + 2) % 65536)] = .ok (.ldaIm 0x84#8, [0x00#8]) ∧
    exec (.ldaIm 0x84#8) ldaState = .next (loadedA ldaState 0x84#8 2 2) := ⟨by decide, rfl, rfl⟩
theorem witness_OverspendIsNotCarriedOver : ldaState.Runnable := by decide
theorem witness_FetchSeesWhatJsrWrote : ∃ t, exec (.jsr jsrState.sp) jsrState = .next t := ⟨_, rfl⟩
theorem witness_StepKeepsThePairRunnable : ∃ t, step ldaState = .next t := ⟨_, rfl⟩
theorem witness_HostWritesRegistersInRange : 255 < RegName.x.size ∧ RegName.x.size ≤ 256 ∧ 65535 < RegName.pc.size ∧
    RegName.pc.size ≤ 65536 ∧ (1 ≤ 1 ∧ 1 < 2) ∧ RegName.pc ≠ RegName.x ∧ FlagName.z ≠ FlagName.n := by decide
theorem witness_FaultLeavesNothingToRelyOn : State.reset.Runnable ∧
    (runExec 1 State.reset).1 = .faulted (.unknownOpcode 0x00#8 0xFFFC#16) ∧
    ldaState.Runnable ∧ (runExec 3 ldaState).1 = .faulted (.unknownOpcode 0x00#8 0xFFFE#16) := by decide
/-- A pair that agrees with the faulted one in the latch and `ready` alone, with contents of the reader's choice. -/
theorem witness_FaultLeavesNothingToRelyOn_any :
    { State.reset with a := 0x55#8, fault := some (.unknownOpcode 0x00#8 0xFFFC#16) }.fault =
      (runExec 1 State.reset).2.fault ∧
    { State.reset with a := 0x55#8, fault := some (.unknownOpcode 0x00#8 0xFFFC#16) }.ready =
      (runExec 1 State.reset).2.ready := ⟨rfl, rfl⟩
theorem witness_PlacedInstructionRuns : decodeTableWord 24 0x123420 = some (.jsr 0x1234#16) := by decide

end Sys2Proof.Tests
end

section
/-! SUPPORT. The fault latch (10_state.md R27): what each operation of the host does to it, and what an `Exec` call that
answers a fault has met. -/

namespace Sys2Proof.Machine

variable {s : State}

/-! ### The host's operations beside `Exec` -/

theorem hostOp_poke_in_bounds {a : Nat} (v : Byte) (h : a < Config.cap) :
    hostOp (.poke a v) s = (.done, s.setMem (s.mem.write a v)) := by
  simp [hostOp, memWrite_in_bounds s v h]

theorem hostOp_poke_out_of_bounds {a : Nat} (v : Byte) (h : Config.cap ≤ a) :
    hostOp (.poke a v) s = (.fault (.outOfBounds a), s) := by
  simp [hostOp, memWrite_out_of_bounds s v h]

theorem hostOp_peek_in_bounds {a : Nat} (h : a < Config.cap) :
    hostOp (.peek a) s = (.value (s.mem.read a).toNat, s) := by
  simp [hostOp, memRead_in_bounds s h]

theorem hostOp_peek_out_of_bounds {a : Nat} (h : Config.cap ≤ a) :
    hostOp (.peek a) s = (.fault (.outOfBounds a), s) := by
  simp [hostOp, memRead_out_of_bounds s h]

theorem hostOp_writeReg_in_range {r : RegName} {v : Nat} (h : v < r.size) :
    hostOp (.writeReg r v) s = (.done, s.setRegName r v) := if_pos h

theorem hostOp_writeReg_out_of_range {r : RegName} {v : Nat} (h : r.size ≤ v) :
    hostOp (.writeReg r v) s = (.refused .valueOutOfRange, s) := if_neg (Nat.not_lt.mpr h)

theorem hostOp_writeFlag_in_range (g : FlagName) {v : Nat} (h : v < 2) :
    hostOp (.writeFlag g v) s = (.done, s.setFlag g (v == 1)) := if_pos h

theorem hostOp_writeFlag_out_of_range (g : FlagName) {v : Nat} (h : 2 ≤ v) :
    hostOp (.writeFlag g v) s = (.refused .valueOutOfRange, s) := if_neg (Nat.not_lt.mpr h)

/-- An operation that is neither `Reset` nor `Exec` leaves the latch alone, whatever it answers (10_state.md R27). -/
theorem hostOp_fault_of_ne_reset_exec {op : HostOp} (hreset : op ≠ .reset) (hexec : ∀ n, op ≠ .exec n) :
    (hostOp op s).2.fault = s.fault := by
  cases op with
  | reset => exact absurd rfl hreset
  | exec n => exact absurd rfl (hexec n)
  | poke a v =>
    rcases Nat.lt_or_ge a Config.cap with h | h
    · rw [hostOp_poke_in_bounds v h, State.setMem_fault]
    · rw [hostOp_poke_out_of_bounds v h]
  | peek a =>
    rcases Nat.lt_or_ge a Config.cap with h | h
    · rw [hostOp_peek_in_bounds h]
    · rw [hostOp_peek_out_of_bounds h]
  | writeReg r v =>
    rcases Nat.lt_or_ge v r.size with h | h
    · rw [hostOp_writeReg_in_range h, State.setRegName_fault]
    · rw [hostOp_writeReg_out_of_range h]
  | writeFlag g v =>
    rcases Nat.lt_or_ge v 2 with h | h
    · rw [hostOp_writeFlag_in_range g h, State.setFlag_fault]
    · rw [hostOp_writeFlag_out_of_range g h]
  | readReg r => rfl
  | readFlag g => rfl
  | memInit => rfl

/-! ### `Exec` -/

/-- A latched pair, reset or not, is left as it is (46_exec_loop.md R188). -/
theorem runExec_state_of_latched {f : Fault} (hf : s.fault = some f) (n : Int) : (runExec n s).2 = s := by
  cases hr : s.ready with
  | false => rw [runExec_not_ready hr]
  | true => rw [runExec_latched hr hf]

/-- A call ends in a fault only where its loop met that fault, and then in the latched state (60_exceptions.md R206). -/
theorem endCall_faulted {n : Int} {o : Host.Outcome State Fault Refusal} {f : Fault}
    (h : (endCall n s o).1 = .faulted f) : o = .fault f ∧ (endCall n s o).2 = (s.setCyc n).raise f := by
  cases o with
  | next t => cases h
  | fault g =>
    cases h
    exact ⟨rfl, rfl⟩
  | refused r => cases h

/-- The one way a runnable pair's `Exec` answers a fault: the loop met it, and the state left is the raised one. -/
theorem runExec_faulted {n : Int} {f : Fault} (hs : s.Runnable) (h : (runExec n s).1 = .faulted f) :
    runLoop (s.setCyc n) = .fault f ∧ (runExec n s).2 = (s.setCyc n).raise f := by
  rw [runExec_runnable hs] at h ⊢
  exact endCall_faulted h

end Sys2Proof.Machine

namespace Sys2Proof.Claims

open Sys2Proof.Machine

/-- Settles O49: a faulting call leaves the raised state, which is latched and still `ready`; a latched pair's `Exec`
changes nothing; and the other operations leave the latch alone. -/
theorem faultLatchesUntilReset : Obligations.FaultLatchesUntilReset := by
  refine ⟨fun n s f hs h => ?_, fun op s f hf hreset => ?_, fun s => ?_, fun op s hf hexec => ?_⟩
  · obtain ⟨-, hleft⟩ := runExec_faulted hs h
    have hlatch : (runExec n s).2.fault = some f := by rw [hleft, State.raise_fault]
    have hready : (runExec n s).2.ready = true := by rw [hleft, State.raise_ready, State.setCyc_ready, hs.1]
    exact ⟨hlatch, runExec_latched hready hlatch⟩
  · by_cases hexec : ∃ n, op = .exec n
    · obtain ⟨n, rfl⟩ := hexec
      have hkept : (hostOp (.exec n) s).2 = s := runExec_state_of_latched hf n
      rw [hkept, hf]
    · rw [hostOp_fault_of_ne_reset_exec hreset (not_exists.mp hexec), hf]
  · exact State.resetOp_fault s
  · by_cases hreset : op = .reset
    · subst hreset
      exact State.resetOp_fault s
    · rw [hostOp_fault_of_ne_reset_exec hreset hexec, hf]

end Sys2Proof.Claims
end

section
/-! SUPPORT. What the memory operations leave in the cells (20_memory.md R52 to R54): the bytes of a word as naturals
give them, two neighbouring cells written one after the other, and the host's MemInit. -/

namespace Sys2Proof.Machine

/-! ### The bytes of a word -/

theorem lowByte_eq_ofNat (w : Word) : lowByte w = BitVec.ofNat 8 w.toNat := (BitVec.ofNat_toNat 8 w).symm

theorem highByte_eq_ofNat (w : Word) : highByte w = BitVec.ofNat 8 (w.toNat / 256) := by
  have hlt := (highByte w).isLt
  rw [toNat_highByte] at hlt
  apply BitVec.eq_of_toNat_eq
  rw [toNat_highByte, BitVec.toNat_ofNat, Nat.mod_eq_of_lt hlt]

/-! ### Two neighbouring cells, the lower address first -/

section
variable (m : Memory) (a : Nat) (lo hi : Byte)

theorem Memory.read_write_pair_lower : ((m.write a lo).write (a + 1) hi).read a = lo := by
  rw [Memory.read_write_other _ hi (Nat.ne_of_lt a.lt_succ_self), Memory.read_write_same]

theorem Memory.read_write_pair_other {b : Nat} (hlower : b ≠ a) (hupper : b ≠ a + 1) :
    ((m.write a lo).write (a + 1) hi).read b = m.read b := by
  rw [Memory.read_write_other _ hi hupper, Memory.read_write_other m lo hlower]

end

/-! ### MemInit -/

theorem hostOp_memInit (s : State) : hostOp .memInit s = (.done, s.setMem Memory.zeroed) := rfl

end Sys2Proof.Machine

namespace Sys2Proof.Claims

open Sys2Proof.Machine

/-- Settles O34: the bound decides between the fault and the access, and a write is seen in its own cell alone. -/
theorem memoryAccessIsBoundsChecked : Obligations.MemoryAccessIsBoundsChecked := by
  refine fun a v s => ⟨fun hout => ⟨?_, ?_⟩, fun hin => ⟨?_, s.setMem (s.mem.write a v), ?_, rfl, ?_, ?_⟩⟩
  · exact memRead_out_of_bounds s hout
  · exact memWrite_out_of_bounds s v hout
  · exact memRead_in_bounds s hin
  · exact memWrite_in_bounds s v hin
  · exact s.mem.read_write_same a v
  · exact fun b hb => s.mem.read_write_other v hb

/-- Settles O36: below 0xFFFF the two cells are written, low byte first, at two cycles; at 0xFFFF, the one address whose
successor is out of bounds, the write is refused. -/
theorem wordWriteIsLittleEndian : Obligations.WordWriteIsLittleEndian := by
  refine fun a w s => ⟨fun hin => ⟨_, writeWord_below_top s w ?_, rfl, ?_, ?_, ?_⟩, fun hout => ?_⟩
  · exact fun htop => absurd hin (Nat.not_lt.mpr ((writeWord_bound a).mpr htop))
  · rw [← lowByte_eq_ofNat]
    exact Memory.read_write_pair_lower _ _ _ _
  · rw [← highByte_eq_ofNat]
    exact Memory.read_write_same _ _ _
  · exact fun b hlower hupper => Memory.read_write_pair_other _ _ _ _ hlower hupper
  · obtain rfl := (writeWord_bound a).mp hout
    exact writeWord_top s w

/-- Settles O58: MemInit replaces the memory by the zeroed one and nothing else. -/
theorem memInitZeroesEveryCell : Obligations.MemInitZeroesEveryCell := by
  intro s
  rw [hostOp_memInit]
  exact ⟨rfl, rfl, Memory.read_zeroed⟩

end Sys2Proof.Claims
end

section
/-! SUPPORT. Which opcode bytes are handled (30_encoding.md R84, R86): the lookup succeeds exactly on the first column of
the opcode table, which is the list of twenty values the statements use. -/

namespace Sys2Proof

theorem findRow_isSome {op : Byte} {rows : List (Byte × Form)} :
    (findRow op rows).isSome = true ↔ op ∈ rows.map Prod.fst := by
  induction rows with
  | nil => simp [findRow]
  | cons row rows ih =>
    rw [List.map_cons, List.mem_cons]
    by_cases hop : row.1 = op
    · simp [findRow, hop]
    · simp [findRow, hop, Ne.symm hop, ih]

end Sys2Proof

namespace Sys2Proof.Claims

open Sys2Proof.Machine

theorem opcodeTable_opcodes : opcodeTable.map Prod.fst = handledOpcodes := rfl

theorem formOf_isSome {op : Byte} : (formOf op).isSome = true ↔ op ∈ handledOpcodes := by
  rw [← opcodeTable_opcodes]
  exact findRow_isSome

theorem formOf_eq_none {op : Byte} : formOf op = none ↔ op ∉ handledOpcodes := by
  rw [← formOf_isSome, Option.not_isSome_iff_eq_none]

/-- As naturals, the byte values that have a row are the twenty of the list, in another order. -/
theorem handledValues_perm :
    ((List.range 256).filter fun k => (formOf (BitVec.ofNat 8 k)).isSome).Perm
      (handledOpcodes.map BitVec.toNat) := by
  have hnodup : (handledOpcodes.map BitVec.toNat).Nodup := by decide
  refine (List.perm_ext_iff_of_nodup (List.nodup_range.filter _) hnodup).mpr fun k => ?_
  rw [List.mem_filter, List.mem_range, formOf_isSome, List.mem_map]
  constructor
  · rintro ⟨hk, hop⟩
    exact ⟨_, hop, (BitVec.toNat_ofNat k 8).trans (Nat.mod_eq_of_lt hk)⟩
  · rintro ⟨op, hop, rfl⟩
    exact ⟨op.isLt, by rwa [BitVec.ofNat_toNat, BitVec.setWidth_eq]⟩

theorem unhandledValues_length :
    ((List.range 256).filter fun k => (formOf (BitVec.ofNat 8 k)).isNone).length = 236 := by
  have hhandled : ((List.range 256).filter fun k => (formOf (BitVec.ofNat 8 k)).isSome).length = 20 :=
    handledValues_perm.length_eq
  have hall := List.length_eq_length_filter_add (l := List.range 256) fun k => (formOf (BitVec.ofNat 8 k)).isSome
  rw [hhandled, List.length_range] at hall
  simp only [Option.not_isSome] at hall
  omega

theorem step_of_opcode_unhandled {s : State} (hs : s.Runnable) (hop : s.opcode ∉ handledOpcodes) :
    step s = .fault (.unknownOpcode s.opcode s.pc) := by
  rw [step_runnable hs]
  exact stepInstr_unhandled (instr_eq_none.mpr (formOf_eq_none.mpr hop))

/-- Settles O4: the lookup succeeds on the table's own opcodes alone, which are twenty of the 256 values; on any other
byte there is no instruction at `PC`, and the step is the fault. -/
theorem otherOpcodesAreUnhandled : Obligations.OtherOpcodesAreUnhandled := by
  refine ⟨fun op => formOf_isSome, unhandledValues_length, ?_, fun s hs hop => step_of_opcode_unhandled hs hop⟩
  decide

end Sys2Proof.Claims
end

section
/-! SUPPORT. The primitives and the page-cross test in arithmetic on naturals (40_primitives_addressing.md R100 to R103,
R106, R117). -/

namespace Sys2Proof.Machine

/-! ### Load flags -/

theorem zeroOf_eq_decide (v : Byte) : zeroOf v = decide (v.toNat = 0) := by
  rw [zeroOf, beq_eq_decide, decide_eq_decide, BitVec.toNat_eq, BitVec.toNat_zero]

theorem negativeOf_eq_decide (v : Byte) : negativeOf v = decide (0x80 ≤ v.toNat) :=
  (BitVec.msb_eq_getLsbD_last v).symm.trans (BitVec.msb_eq_decide v)

/-! ### The page-cross test -/

section
variable (base sum : Word)

theorem pageCross_truePage : pageCross .truePage base sum = true ↔ base.toNat / 256 ≠ sum.toNat / 256 := by
  rw [pageCross, Bool.not_eq_true', beq_eq_false_iff_ne, ne_eq, BitVec.toNat_eq, toNat_highByte, toNat_highByte]

theorem pageCross_refApprox :
    pageCross .refApprox base sum = true ↔ 0xFF ≤ (sum.toNat + 65536 - base.toNat) % 65536 := by
  rw [pageCross, decide_eq_true_iff, BitVec.toNat_sub, ← Nat.sub_add_comm base.isLt.le, Nat.add_comm]

variable {base sum}

/-- The subtraction modulo 2^16 undoes the addition of the index, carry out included. -/
theorem sum_sub_base_eq_index {index : Byte} (h : sum.toNat = (base.toNat + index.toNat) % 65536) :
    (sum.toNat + 65536 - base.toNat) % 65536 = index.toNat := by
  have hbase := base.isLt
  have hindex := index.isLt
  omega

theorem pageCross_refApprox_index {index : Byte} (h : sum.toNat = (base.toNat + index.toNat) % 65536) :
    pageCross .refApprox base sum = true ↔ index = 0xFF#8 := by
  have hindex := index.isLt
  rw [pageCross_refApprox, sum_sub_base_eq_index h, BitVec.toNat_eq, BitVec.toNat_ofNat]
  omega

end

/-! ### Fetches and reads -/

section
variable (s : State)

theorem State.tick_tick (m n : Nat) : (s.tick m).tick n = s.tick (m + n) := by
  rw [State.tick, State.tick, State.tick, Int.sub_sub, Int.natCast_add]

theorem State.toNat_wordOf_cells (w v : Word) :
    (wordOf (s.cell w) (s.cell v)).toNat = (s.mem.read w.toNat).toNat + 256 * (s.mem.read v.toNat).toNat := by
  rw [toNat_wordOf, Nat.add_comm, Nat.mul_comm, State.cell, State.cell]

theorem fetchByte_eq : fetchByte s = (s.mem.read s.pc.toNat, s.fetched 1) := rfl

theorem fetchWord_state : (fetchWord s).2 = s.fetched 2 := rfl

theorem toNat_fetchWord : (fetchWord s).1.toNat =
    (s.mem.read s.pc.toNat).toNat + 256 * (s.mem.read ((s.pc.toNat + 1) % 65536)).toNat := by
  rw [fetchWord, State.toNat_wordOf_cells, BitVec.toNat_add, BitVec.toNat_ofNat]

theorem readByte_eq (a : Word) : readByte a s = (s.mem.read a.toNat, s.tick 1) := rfl

/-- The successor of a zero-page address is no zero-page address for `p` = 0xFF: it is 0x0100. -/
theorem toNat_zext16_add_one (p : Byte) : (zext16 p + 1#16).toNat = p.toNat + 1 := by
  have hp := p.isLt
  rw [BitVec.toNat_add, toNat_zext16, BitVec.toNat_ofNat]
  omega

theorem toNat_readWord (p : Byte) : (readWord p s).1.toNat =
    (s.mem.read p.toNat).toNat + 256 * (s.mem.read (p.toNat + 1)).toNat := by
  rw [readWord_eq, State.toNat_wordOf_cells, toNat_zext16, toNat_zext16_add_one]

theorem readWord_state (p : Byte) : (readWord p s).2 = s.tick 2 := by
  rw [readWord_eq, State.tick_tick]

end

end Sys2Proof.Machine

namespace Sys2Proof.Claims

open Sys2Proof.Machine

/-- Settles O33: the high bytes are the quotients by 256, and the sum less the base, modulo 2^16, is the index. -/
theorem pageCrossPolicies : Obligations.PageCrossPolicies :=
  ⟨rfl, pageCross_truePage, pageCross_refApprox, fun _ _ _ h => pageCross_refApprox_index h⟩

/-- Settles O37: the second byte's address is the successor of `PC` modulo 2^16. -/
theorem fetchPrimitives : Obligations.FetchPrimitives :=
  fun s => ⟨fetchByte_eq s, toNat_fetchWord s, fetchWord_state s⟩

/-- Settles O38: the second byte's address is `p + 1`, which a word holds without a carry out, and the two one-cycle
reads cost two. -/
theorem readPrimitives : Obligations.ReadPrimitives :=
  fun a p s => ⟨readByte_eq s a, toNat_readWord s p, readWord_state s p⟩

/-- Settles O27: `Z` is `v = 0` and `N` is `0x80 ≤ v`, which the three ranges of `v` decide and which exclude each
other. -/
theorem loadFlagsFollowTheValue : Obligations.LoadFlagsFollowTheValue := by
  refine fun v s => ⟨rfl, ?_⟩
  simp only [State.setLoadFlags_flagZ, State.setLoadFlags_flagN, zeroOf_eq_decide, negativeOf_eq_decide,
    decide_eq_true_iff, decide_eq_false_iff_not]
  refine ⟨?_, ?_, ?_, ?_⟩ <;> omega

end Sys2Proof.Claims
end

section
/-! SUPPORT. NOP as a whole (41_nop.md R130): the opcode fetch followed by one idle cycle. -/

namespace Sys2Proof.Machine

variable (s : State)

/-- A fetch and a tick debit the counter once, by the sum of their costs, and the fetch alone moves `PC`. -/
theorem State.tick_fetched (m n : Nat) :
    (s.fetched m).tick n = { s with pc := s.pc + BitVec.ofNat 16 m, cyc := s.cyc - (m + n : Nat) } := by
  rw [State.fetched, State.tick, Int.sub_sub, Int.natCast_add]

theorem exec_nop : exec .nop s = .next ((s.fetched 1).tick 1) := rfl

end Sys2Proof.Machine

namespace Sys2Proof.Claims

open Sys2Proof.Machine

/-- Settles O6: the cycle of the opcode fetch and the cycle of NOP itself make the two. -/
theorem nopResult : Obligations.NopResult :=
  fun s => ⟨rfl, (exec_nop s).trans (congrArg Host.Outcome.next (s.tick_fetched 1 1))⟩

end Sys2Proof.Claims
end

section
/-! SUPPORT. What each addressing mode leaves in arithmetic on naturals (40_primitives_addressing.md R108 to R117), and the
load of the byte it addresses into any register: the byte read, the advance of `PC` and the cycles debited, the opcode
fetch included. -/

namespace Sys2Proof.Machine

open Sys2Proof.Claims

/-! ### Indexed addresses and the page-cross cycle -/

theorem toNat_zext16_add (b index : Byte) : (zext16 (b + index)).toNat = (b.toNat + index.toNat) % 256 := by
  rw [toNat_zext16, BitVec.toNat_add]

theorem toNat_add_zext16 (base : Word) (index : Byte) :
    (base + zext16 index).toNat = (base.toNat + index.toNat) % 65536 := by
  rw [BitVec.toNat_add, toNat_zext16]

/-- The page-cross test of an indexed access decides its extra cycle, under both policies (R117). -/
theorem pageCross_indexed_cost (policy : PageCrossPolicy) (base : Word) (index : Byte) :
    (if pageCross policy base (base + zext16 index) then 1 else 0) = crossCost policy base.toNat index.toNat := by
  have hsum := toNat_add_zext16 base index
  cases policy with
  | truePage => simp only [crossCost, pageCross_truePage, hsum, ne_eq, ite_not]
  | refApprox =>
    simp only [crossCost, pageCross_refApprox_index hsum, BitVec.toNat_eq, BitVec.toNat_ofNat, Nat.reducePow,
      Nat.reduceMod]

/-! ### `advanced` -/

/-- `PC` moved on by `len` bytes and the counter debited by `cost`: all that an instruction does before its load. -/
def State.advanced (s : State) (len : Nat) (cost : Int) : State :=
  { s with pc := BitVec.ofNat 16 (s.pc.toNat + len), cyc := s.cyc - cost }

variable (s : State) (len : Nat) (cost : Int)

@[simp] theorem State.advanced_pageCross : (s.advanced len cost).pageCross = s.pageCross := rfl
@[simp] theorem State.cell_advanced (w : Word) : (s.advanced len cost).cell w = s.mem.read w.toNat := rfl

theorem State.fetched_eq_advanced (n : Nat) : s.fetched n = s.advanced n n := by
  rw [State.fetched, State.advanced, BitVec.ofNat_add, BitVec.ofNat_toNat, BitVec.setWidth_eq]

theorem State.fetched_advanced (n : Nat) : (s.advanced len cost).fetched n = s.advanced (len + n) (cost + n) := by
  simp only [State.fetched, State.advanced, BitVec.ofNat_add, BitVec.add_assoc, Int.sub_sub]

theorem State.tick_advanced (n : Nat) : (s.advanced len cost).tick n = s.advanced len (cost + n) := by
  rw [State.tick, State.advanced, State.advanced, Int.sub_sub]

theorem opcodeFetched_eq_advanced : opcodeFetched s = s.advanced 1 1 := s.fetched_eq_advanced 1

/-- Fetching the opcode and an operand of `n` bytes costs one cycle for each byte. -/
theorem opcodeFetched_fetched (n : Nat) : (opcodeFetched s).fetched n = s.advanced (1 + n) (1 + n) := by
  rw [opcodeFetched_eq_advanced, State.fetched_advanced]

theorem indexed_advanced (base : Word) (index : Byte) : indexed base index (s.advanced len cost) =
    (base + zext16 index, s.advanced len (cost + crossCost s.pageCross base.toNat index.toNat)) := by
  rw [indexed_eq, tickIfCross_eq, State.advanced_pageCross, pageCross_indexed_cost, State.advanced, State.advanced,
    Int.sub_sub]

theorem toNat_readWord_advanced (p : Byte) : (readWord p (s.advanced len cost)).1.toNat = pointerAt s p.toNat :=
  toNat_readWord (s.advanced len cost) p

theorem readWord_advanced_state (p : Byte) : (readWord p (s.advanced len cost)).2 = s.advanced len (cost + 2) := by
  rw [readWord_state, State.tick_advanced]
  rfl

/-! ### Loads by addressing mode -/

variable (r : Reg)

/-- The load of a byte at an effective address costs one cycle more than finding the address. -/
theorem loadFrom_advanced (p : Word × State) (h : p.2 = s.advanced len cost) :
    loadFrom r p = load r (s.mem.read p.1.toNat) (s.advanced len (cost + 1)) := by
  rw [loadFrom_eq, h, State.tick_advanced, State.cell_advanced]
  rfl

theorem loadImmediate_immediate (b : Byte) :
    loadImmediate r (immediate b (opcodeFetched s)) = load r b (s.advanced 2 2) := by
  rw [immediate_eq, opcodeFetched_fetched]
  rfl

theorem loadFrom_zeroPage (b : Byte) :
    loadFrom r (zeroPage b (opcodeFetched s)) = load r (s.mem.read b.toNat) (s.advanced 2 3) := by
  rw [zeroPage_eq, loadFrom_advanced s _ _ r _ (opcodeFetched_fetched s 1), toNat_zext16]
  rfl

/-- The fetches of the opcode and the operand byte, and the cycle of an index added to the operand (R110, R111, R115). -/
theorem opcodeFetched_fetched_tick : ((opcodeFetched s).fetched 1).tick 1 = s.advanced 2 3 := by
  rw [opcodeFetched_fetched, State.tick_advanced]
  rfl

theorem loadFrom_zeroPageIndexed (b index : Byte) : loadFrom r (zeroPageIndexed b index (opcodeFetched s)) =
    load r (s.mem.read ((b.toNat + index.toNat) % 256)) (s.advanced 2 4) := by
  rw [loadFrom_advanced s 2 3 r _ (opcodeFetched_fetched_tick s), ← toNat_zext16_add]
  rfl

theorem loadFrom_absolute (w : Word) :
    loadFrom r (absolute w (opcodeFetched s)) = load r (s.mem.read w.toNat) (s.advanced 3 4) := by
  rw [absolute_eq, loadFrom_advanced s _ _ r _ (opcodeFetched_fetched s 2)]
  rfl

/-- A load at an indexed address: the base is found at `cost` cycles, and the sum may cost one more before the read. -/
theorem loadFrom_indexed (base : Word) (index : Byte) : loadFrom r (indexed base index (s.advanced len cost)) =
    load r (s.mem.read ((base.toNat + index.toNat) % 65536))
      (s.advanced len (cost + 1 + crossCost s.pageCross base.toNat index.toNat)) := by
  rw [indexed_advanced, loadFrom_advanced s _ _ r _ rfl, toNat_add_zext16, Int.add_right_comm]

/-- Absolute,X and Absolute,Y once the operand word is fetched. -/
theorem loadFrom_absoluteIndexed (w : Word) (index : Byte) :
    loadFrom r (indexed w index ((opcodeFetched s).fetched 2)) =
      load r (s.mem.read ((w.toNat + index.toNat) % 65536))
        (s.advanced 3 (4 + crossCost s.pageCross w.toNat index.toNat)) := by
  rw [opcodeFetched_fetched, loadFrom_indexed]
  rfl

theorem loadFrom_indirectX (b : Byte) : loadFrom r (indirectX b (opcodeFetched s)) =
    load r (s.mem.read (pointerAt s ((b.toNat + s.x.toNat) % 256))) (s.advanced 2 6) := by
  have hmode : indirectX b (opcodeFetched s) = readWord (b + s.x) (s.advanced 2 3) := by
    rw [indirectX_eq, opcodeFetched_fetched_tick]
    rfl
  rw [hmode, loadFrom_advanced s _ _ r _ (readWord_advanced_state s 2 3 _), toNat_readWord_advanced, BitVec.toNat_add]
  rfl

theorem loadFrom_indirectY (b : Byte) : loadFrom r (indirectY b (opcodeFetched s)) =
    load r (s.mem.read ((pointerAt s b.toNat + s.y.toNat) % 65536))
      (s.advanced 2 (5 + crossCost s.pageCross (pointerAt s b.toNat) s.y.toNat)) := by
  have hbase : (opcodeFetched s).fetched 1 = s.advanced 2 2 := opcodeFetched_fetched s 1
  rw [indirectY_eq, hbase, readWord_advanced_state, loadFrom_indexed, toNat_readWord_advanced]
  rfl

end Sys2Proof.Machine
end

section
/-! SUPPORT. LDA in its eight modes (42_lda.md R140 to R147): each is the load of its mode into `A`. -/

namespace Sys2Proof.Machine

open Sys2Proof.Claims

theorem encodeF2_eq (op : Byte) (w : Word) :
    encodeF2 op w = [op, BitVec.ofNat 8 w.toNat, BitVec.ofNat 8 (w.toNat / 256)] := by
  rw [encodeF2, lowByte_eq_ofNat, highByte_eq_ofNat]

variable (s : State)

theorem load_a_advanced (v : Byte) (len : Nat) (cost : Int) :
    load .a v (s.advanced len cost) = loadedA s v len cost := by
  rw [load, State.setLoadFlags, zeroOf_eq_decide, negativeOf_eq_decide]
  rfl

/-! ### The meaning of each instruction -/

theorem exec_ldaIm (b : Byte) :
    exec (.ldaIm b) s = .next (loadImmediate .a (immediate b (opcodeFetched s))) := rfl

theorem exec_ldaZp (b : Byte) : exec (.ldaZp b) s = .next (loadFrom .a (zeroPage b (opcodeFetched s))) := rfl

theorem exec_ldaZpx (b : Byte) :
    exec (.ldaZpx b) s = .next (loadFrom .a (zeroPageIndexed b s.x (opcodeFetched s))) := rfl

theorem exec_ldaAbs (w : Word) : exec (.ldaAbs w) s = .next (loadFrom .a (absolute w (opcodeFetched s))) := rfl

theorem exec_ldaAbsx (w : Word) :
    exec (.ldaAbsx w) s = .next (loadFrom .a (indexed w s.x ((opcodeFetched s).fetched 2))) := rfl

theorem exec_ldaAbsy (w : Word) :
    exec (.ldaAbsy w) s = .next (loadFrom .a (indexed w s.y ((opcodeFetched s).fetched 2))) := rfl

theorem exec_ldaIndx (b : Byte) : exec (.ldaIndx b) s = .next (loadFrom .a (indirectX b (opcodeFetched s))) := rfl

theorem exec_ldaIndy (b : Byte) : exec (.ldaIndy b) s = .next (loadFrom .a (indirectY b (opcodeFetched s))) := rfl

end Sys2Proof.Machine

namespace Sys2Proof.Claims

open Sys2Proof.Machine

/-- Settles O7: the operand byte is the value, fetched with the opcode in two cycles. -/
theorem ldaImmediateResult : Obligations.LdaImmediateResult :=
  fun b s => ⟨rfl, by rw [exec_ldaIm, loadImmediate_immediate, load_a_advanced]⟩

/-- Settles O8: a zero-page address is the operand byte itself. -/
theorem ldaZeroPageResult : Obligations.LdaZeroPageResult :=
  fun b s => ⟨rfl, by rw [exec_ldaZp, loadFrom_zeroPage, load_a_advanced]⟩

/-- Settles O9: the sum of two bytes wraps modulo 2^8 before it is extended to an address. -/
theorem ldaZeroPageXResult : Obligations.LdaZeroPageXResult :=
  fun b s => ⟨rfl, by rw [exec_ldaZpx, loadFrom_zeroPageIndexed, load_a_advanced]⟩

/-- Settles O10: the operand word is the address. -/
theorem ldaAbsoluteResult : Obligations.LdaAbsoluteResult :=
  fun w s => ⟨encodeF2_eq _ w, by rw [exec_ldaAbs, loadFrom_absolute, load_a_advanced]⟩

/-- Settles O11: the sum wraps modulo 2^16, and either page-cross test decides the fifth cycle. -/
theorem ldaAbsoluteXResult : Obligations.LdaAbsoluteXResult :=
  fun w s => ⟨encodeF2_eq _ w, by rw [exec_ldaAbsx, loadFrom_absoluteIndexed, load_a_advanced]⟩

/-- Settles O12: as Absolute,X with `Y` for the index. -/
theorem ldaAbsoluteYResult : Obligations.LdaAbsoluteYResult :=
  fun w s => ⟨encodeF2_eq _ w, by rw [exec_ldaAbsy, loadFrom_absoluteIndexed, load_a_advanced]⟩

/-- Settles O13: the pointer's own address wraps modulo 2^8, the address of its second byte does not. -/
theorem ldaIndirectXResult : Obligations.LdaIndirectXResult :=
  fun b s => ⟨rfl, by rw [exec_ldaIndx, loadFrom_indirectX, load_a_advanced]⟩

/-- Settles O14: the base of the indexed access is the pointer read from the zero page. -/
theorem ldaIndirectYResult : Obligations.LdaIndirectYResult :=
  fun b s => ⟨rfl, by rw [exec_ldaIndy, loadFrom_indirectY, load_a_advanced]⟩

end Sys2Proof.Claims
end

section
/-! SUPPORT. LDX in its five modes (43_ldx.md R150 to R154): each is the load of its mode into `X`. -/

namespace Sys2Proof.Machine

open Sys2Proof.Claims

variable (s : State)

theorem load_x_advanced (v : Byte) (len : Nat) (cost : Int) :
    load .x v (s.advanced len cost) = loadedX s v len cost := by
  rw [load, State.setLoadFlags, zeroOf_eq_decide, negativeOf_eq_decide]
  rfl

/-! ### The meaning of each instruction -/

theorem exec_ldxIm (b : Byte) :
    exec (.ldxIm b) s = .next (loadImmediate .x (immediate b (opcodeFetched s))) := rfl

theorem exec_ldxZp (b : Byte) : exec (.ldxZp b) s = .next (loadFrom .x (zeroPage b (opcodeFetched s))) := rfl

theorem exec_ldxZpy (b : Byte) :
    exec (.ldxZpy b) s = .next (loadFrom .x (zeroPageIndexed b s.y (opcodeFetched s))) := rfl

theorem exec_ldxAbs (w : Word) : exec (.ldxAbs w) s = .next (loadFrom .x (absolute w (opcodeFetched s))) := rfl

theorem exec_ldxAbsy (w : Word) :
    exec (.ldxAbsy w) s = .next (loadFrom .x (indexed w s.y ((opcodeFetched s).fetched 2))) := rfl

end Sys2Proof.Machine

namespace Sys2Proof.Claims

open Sys2Proof.Machine

/-- Settles O15: the operand byte is the value, and only the two fetches are paid for. -/
theorem ldxImmediateResult : Obligations.LdxImmediateResult :=
  fun b s => ⟨rfl, by rw [exec_ldxIm, loadImmediate_immediate, load_x_advanced]⟩

/-- Settles O16: the operand byte is the zero-page address. -/
theorem ldxZeroPageResult : Obligations.LdxZeroPageResult :=
  fun b s => ⟨rfl, by rw [exec_ldxZp, loadFrom_zeroPage, load_x_advanced]⟩

/-- Settles O17: the index is `Y`, never the register being loaded, and the sum wraps modulo 2^8. -/
theorem ldxZeroPageYResult : Obligations.LdxZeroPageYResult :=
  fun b s => ⟨rfl, by rw [exec_ldxZpy, loadFrom_zeroPageIndexed, load_x_advanced]⟩

/-- Settles O18: the operand word is the address, its low byte encoded first. -/
theorem ldxAbsoluteResult : Obligations.LdxAbsoluteResult :=
  fun w s => ⟨encodeF2_eq _ w, by rw [exec_ldxAbs, loadFrom_absolute, load_x_advanced]⟩

/-- Settles O19: the sum with `Y` wraps modulo 2^16, and either page-cross test decides the fifth cycle. -/
theorem ldxAbsoluteYResult : Obligations.LdxAbsoluteYResult :=
  fun w s => ⟨encodeF2_eq _ w, by rw [exec_ldxAbsy, loadFrom_absoluteIndexed, load_x_advanced]⟩

end Sys2Proof.Claims
end

section
/-! SUPPORT. LDY in its five modes (44_ldy.md R160 to R164): each is the load of its mode into `Y`, indexed by `X` where
the mode has an index. -/

namespace Sys2Proof.Machine

open Sys2Proof.Claims

variable (s : State)

theorem load_y_advanced (v : Byte) (len : Nat) (cost : Int) :
    load .y v (s.advanced len cost) = loadedY s v len cost := by
  rw [load, State.setLoadFlags, zeroOf_eq_decide, negativeOf_eq_decide]
  rfl

/-! ### The meaning of each instruction -/

theorem exec_ldyIm (b : Byte) :
    exec (.ldyIm b) s = .next (loadImmediate .y (immediate b (opcodeFetched s))) := rfl

theorem exec_ldyZp (b : Byte) : exec (.ldyZp b) s = .next (loadFrom .y (zeroPage b (opcodeFetched s))) := rfl

theorem exec_ldyZpx (b : Byte) :
    exec (.ldyZpx b) s = .next (loadFrom .y (zeroPageIndexed b s.x (opcodeFetched s))) := rfl

theorem exec_ldyAbs (w : Word) : exec (.ldyAbs w) s = .next (loadFrom .y (absolute w (opcodeFetched s))) := rfl

theorem exec_ldyAbsx (w : Word) :
    exec (.ldyAbsx w) s = .next (loadFrom .y (indexed w s.x ((opcodeFetched s).fetched 2))) := rfl

end Sys2Proof.Machine

namespace Sys2Proof.Claims

open Sys2Proof.Machine

/-- Settles O20: the operand byte is the value, and the two fetches are the whole cost. -/
theorem ldyImmediateResult : Obligations.LdyImmediateResult :=
  fun b s => ⟨rfl, by rw [exec_ldyIm, loadImmediate_immediate, load_y_advanced]⟩

/-- Settles O21: the operand byte is the zero-page address, and the read adds the third cycle. -/
theorem ldyZeroPageResult : Obligations.LdyZeroPageResult :=
  fun b s => ⟨rfl, by rw [exec_ldyZp, loadFrom_zeroPage, load_y_advanced]⟩

/-- Settles O22: the sum with `X` wraps modulo 2^8, and adding the index costs its cycle whether it wraps or not. -/
theorem ldyZeroPageXResult : Obligations.LdyZeroPageXResult :=
  fun b s => ⟨rfl, by rw [exec_ldyZpx, loadFrom_zeroPageIndexed, load_y_advanced]⟩

/-- Settles O23: the operand word is the address, its low byte encoded first. -/
theorem ldyAbsoluteResult : Obligations.LdyAbsoluteResult :=
  fun w s => ⟨encodeF2_eq _ w, by rw [exec_ldyAbs, loadFrom_absolute, load_y_advanced]⟩

/-- Settles O24: the sum with `X` wraps modulo 2^16, and either page-cross test decides the fifth cycle. -/
theorem ldyAbsoluteXResult : Obligations.LdyAbsoluteXResult :=
  fun w s => ⟨encodeF2_eq _ w, by rw [exec_ldyAbsx, loadFrom_absoluteIndexed, load_y_advanced]⟩

end Sys2Proof.Claims
end

section
/-! SUPPORT. JSR as a whole (45_jsr.md R170, R171): the jump from the state its three fetches leave, what it stores for the
return, its fault at the top of memory, and why an even `SP` keeps clear of that fault. -/

namespace Sys2Proof.Machine

variable {s t : State}

/-! ### The meaning of JSR -/

/-- The memory JSR leaves: the address of the instruction's own last byte, low byte at `SP`. -/
def State.returnStored (s : State) : Memory :=
  (s.mem.write s.sp.toNat (lowByte (s.pc + 2#16))).write (s.sp.toNat + 1) (highByte (s.pc + 2#16))

theorem operandWord_opcodeFetched (w : Word) (s : State) :
    operandWord w (opcodeFetched s) = (w, s.advanced 3 3) := congrArg _ (opcodeFetched_fetched s 2)

theorem exec_jsr_of_jump_ok {w : Word} (h : jump w (s.advanced 3 3) = .ok t) : exec (.jsr w) s = .next t := by
  simp only [exec, execJsr, operandWord_opcodeFetched, h]

theorem exec_jsr_of_jump_error {w : Word} {f : Fault} (h : jump w (s.advanced 3 3) = .error f) :
    exec (.jsr w) s = .fault f := by
  simp only [exec, execJsr, operandWord_opcodeFetched, h]

/-- `PC - 1` after the three fetches is the address of JSR's last byte. -/
theorem State.advanced_three_pc_sub_one : (s.advanced 3 3).pc - 1#16 = s.pc + 2#16 := by
  apply BitVec.eq_of_toNat_eq
  simp only [State.advanced, BitVec.toNat_sub, BitVec.toNat_add, BitVec.toNat_ofNat]
  omega

theorem exec_jsr_below_top (w : Word) (h : s.sp ≠ 0xFFFF#16) : exec (.jsr w) s =
    .next { s with pc := w, sp := s.sp + 2#16, cyc := s.cyc - 6, mem := s.returnStored } := by
  have hcyc : s.cyc - 3 - 2 - 1 = s.cyc - 6 := by omega
  refine exec_jsr_of_jump_ok ?_
  rw [jump_below_top w (s := s.advanced 3 3) h, State.advanced_three_pc_sub_one, ← hcyc]
  rfl

theorem exec_jsr_top (w : Word) (h : s.sp = 0xFFFF#16) : exec (.jsr w) s = .fault (.outOfBounds 0x10000) :=
  exec_jsr_of_jump_error (jump_top w (s := s.advanced 3 3) h)

/-! ### The stored return address -/

theorem toNat_add_two (w : Word) : (w + 2#16).toNat = (w.toNat + 2) % 65536 := BitVec.toNat_add w 2#16

theorem State.returnStored_read_lower :
    s.returnStored.read s.sp.toNat = BitVec.ofNat 8 ((s.pc.toNat + 2) % 65536) := by
  rw [State.returnStored, Memory.read_write_pair_lower, lowByte_eq_ofNat, toNat_add_two]

theorem State.returnStored_read_upper :
    s.returnStored.read (s.sp.toNat + 1) = BitVec.ofNat 8 ((s.pc.toNat + 2) % 65536 / 256) := by
  rw [State.returnStored, Memory.read_write_same, highByte_eq_ofNat, toNat_add_two]

theorem State.returnStored_read_other {a : Nat} (hlower : a ≠ s.sp.toNat) (hupper : a ≠ s.sp.toNat + 1) :
    s.returnStored.read a = s.mem.read a :=
  Memory.read_write_pair_other _ _ _ _ hlower hupper

/-! ### The fault at the top of memory -/

theorem instr_of_jsr_opcode (h : s.opcode = 0x20#8) : ∃ w, s.instr = some (.jsr w) :=
  ⟨wordOf (s.cell (s.pc + 1#16)) (s.cell (s.pc + 2#16)), by rw [State.instr, h, decodeOpcode, formOf_jsr]; rfl⟩

theorem step_of_jsrPastTop (hs : s.Runnable) (h : s.JsrPastTop) : step s = .fault (.outOfBounds 0x10000) := by
  obtain ⟨hop, hsp⟩ := h
  obtain ⟨w, hinstr⟩ := instr_of_jsr_opcode hop
  rw [step_runnable hs, stepInstr_handled hinstr, exec_jsr_top w hsp]

/-- A call whose first step faults ends with that fault. -/
theorem runExec_of_first_step_fault {n : Int} {f : Fault} (hn : 0 < n) (hs : s.Runnable)
    (h : step (s.setCyc n) = .fault f) : (runExec n s).1 = .faulted f := by
  obtain ⟨k, hk⟩ := Nat.exists_eq_add_one.mpr (Int.pos_iff_toNat_pos.mp hn)
  rw [runExec_runnable hs, runLoop, State.setCyc_cyc, hk, loopWhile_fault k hn h]
  rfl

/-! ### An even `SP` -/

/-- A step that ends in a new state ran the instruction at `PC`. -/
theorem exec_of_step (h : step s = .next t) : ∃ i, exec i s = .next t := by
  rw [step_runnable (runnable_of_step h)] at h
  cases hinstr : s.instr with
  | none =>
    rw [stepInstr_unhandled hinstr] at h
    cases h
  | some i => exact ⟨i, (stepInstr_handled hinstr).symm.trans h⟩

theorem State.MovedOnly.sp_eq (h : s.MovedOnly t) : t.sp = s.sp := by
  rw [State.MovedOnly] at h
  rw [h]

theorem load_sp (r : Reg) (v : Byte) (s : State) : (load r v s).sp = s.sp := by
  cases r <;> rfl

/-- `SP` moves only by JSR, and then by 2 (10_state.md R23). -/
theorem exec_next_sp {i : Instr} (h : exec i s = .next t) : t.sp = s.sp ∨ t.sp = s.sp + 2#16 := by
  obtain ⟨-, hmoved⟩ | ⟨r, v, u, -, -, hmoved, rfl⟩ | ⟨w, rfl, hsp, -⟩ := exec_next_cases h
  · exact .inl hmoved.sp_eq
  · exact .inl ((load_sp r v u).trans hmoved.sp_eq)
  · rw [exec_jsr_below_top w hsp] at h
    cases h
    exact .inr rfl

theorem spEven_of_step (heven : s.SpEven) (h : step s = .next t) : t.SpEven := by
  obtain ⟨i, hexec⟩ := exec_of_step h
  obtain hsp | hsp := exec_next_sp hexec
  · rwa [State.SpEven, hsp]
  · rw [State.SpEven, hsp, toNat_add_two]
    rw [State.SpEven] at heven
    omega

theorem State.SpEven.sp_ne_top (heven : s.SpEven) : s.sp ≠ 0xFFFF#16 := by
  intro htop
  rw [State.SpEven, htop] at heven
  exact absurd heven (by decide)

end Sys2Proof.Machine

namespace Sys2Proof.Claims

open Sys2Proof.Machine

/-- Settles O25: after the three fetches `PC - 1` is the address of the last byte, and the one case in which its two bytes
do not fit at `SP` is the fault. -/
theorem jsrResult : Obligations.JsrResult :=
  fun w _ => ⟨encodeF2_eq _ w,
    fun hsp => ⟨_, exec_jsr_below_top w hsp, rfl, State.returnStored_read_lower, State.returnStored_read_upper,
      fun _ hlower hupper => State.returnStored_read_other hlower hupper⟩,
    fun hsp => exec_jsr_top w hsp⟩

/-- Settles O26: the faulting JSR is the call's first step, so the call ends with its fault; and a step moves `SP` by 0 or
2, so that an even `SP` stays even and 0xFFFF is odd. -/
theorem jsrAtTopOfMemoryFaults : Obligations.JsrAtTopOfMemoryFaults := by
  refine ⟨fun w s hsp => exec_jsr_top w hsp, fun n s hn hs hop hsp => ?_, ?_, fun s t heven hstep => ?_⟩
  · have hfirst : step (s.setCyc n) = .fault (.outOfBounds 0x10000) := step_of_jsrPastTop hs ⟨hop, hsp⟩
    exact runExec_of_first_step_fault hn hs hfirst
  · decide
  · have hkept : t.SpEven := spEven_of_step heven hstep
    exact ⟨hkept, hkept.sp_ne_top⟩

end Sys2Proof.Claims
end

section
/-! SUPPORT. What an instruction and a step debit (46_exec_loop.md R192): the page-cross cycle is 0 or 1, and every
instruction costs between 2 and 6. -/

namespace Sys2Proof.Machine

open Sys2Proof.Claims

variable {s t : State}

theorem crossCost_eq_zero_or_one (policy : PageCrossPolicy) (base index : Nat) :
    crossCost policy base index = 0 ∨ crossCost policy base index = 1 := by
  cases policy with
  | truePage => exact ite_eq_or_eq ..
  | refApprox => exact (ite_eq_or_eq ..).symm

/-- The cost of an indexed access is its base cost or one cycle more. -/
theorem add_crossCost_bounds {c : Int} (hlower : 2 ≤ c) (hupper : c + 1 ≤ 6) (policy : PageCrossPolicy)
    (base index : Nat) : 2 ≤ c + crossCost policy base index ∧ c + crossCost policy base index ≤ 6 := by
  obtain hcross | hcross := crossCost_eq_zero_or_one policy base index <;> omega

theorem costOf_bounds (i : Instr) (s : State) : 2 ≤ costOf i s ∧ costOf i s ≤ 6 := by
  cases i
  case ldaAbsx | ldaAbsy | ldaIndy | ldxAbsy | ldyAbsx =>
    exact add_crossCost_bounds (by decide) (by decide) ..
  all_goals simp [costOf]

/-- The debit of an instruction whose result is known. -/
theorem debit_of_exec_eq {i : Instr} {u : State} {c : Int} (hresult : exec i s = .next u) (hcyc : u.cyc = s.cyc - c)
    (h : exec i s = .next t) : s.cyc - t.cyc = c := by
  cases hresult.symm.trans h
  omega

theorem sp_ne_top_of_exec_jsr {w : Word} (h : exec (.jsr w) s = .next t) : s.sp ≠ 0xFFFF#16 := by
  intro htop
  cases (exec_jsr_top w htop).symm.trans h

/-- The whole result of each instruction says what it debits, and that is its row of the cost table. -/
theorem exec_debit {i : Instr} (h : exec i s = .next t) : s.cyc - t.cyc = costOf i s := by
  cases i with
  | nop => exact debit_of_exec_eq (nopResult s).2 rfl h
  | ldaIm b => exact debit_of_exec_eq (ldaImmediateResult b s).2 rfl h
  | ldaZp b => exact debit_of_exec_eq (ldaZeroPageResult b s).2 rfl h
  | ldaZpx b => exact debit_of_exec_eq (ldaZeroPageXResult b s).2 rfl h
  | ldaAbs w => exact debit_of_exec_eq (ldaAbsoluteResult w s).2 rfl h
  | ldaAbsx w => exact debit_of_exec_eq (ldaAbsoluteXResult w s).2 rfl h
  | ldaAbsy w => exact debit_of_exec_eq (ldaAbsoluteYResult w s).2 rfl h
  | ldaIndx b => exact debit_of_exec_eq (ldaIndirectXResult b s).2 rfl h
  | ldaIndy b => exact debit_of_exec_eq (ldaIndirectYResult b s).2 rfl h
  | ldxIm b => exact debit_of_exec_eq (ldxImmediateResult b s).2 rfl h
  | ldxZp b => exact debit_of_exec_eq (ldxZeroPageResult b s).2 rfl h
  | ldxZpy b => exact debit_of_exec_eq (ldxZeroPageYResult b s).2 rfl h
  | ldxAbs w => exact debit_of_exec_eq (ldxAbsoluteResult w s).2 rfl h
  | ldxAbsy w => exact debit_of_exec_eq (ldxAbsoluteYResult w s).2 rfl h
  | ldyIm b => exact debit_of_exec_eq (ldyImmediateResult b s).2 rfl h
  | ldyZp b => exact debit_of_exec_eq (ldyZeroPageResult b s).2 rfl h
  | ldyZpx b => exact debit_of_exec_eq (ldyZeroPageXResult b s).2 rfl h
  | ldyAbs w => exact debit_of_exec_eq (ldyAbsoluteResult w s).2 rfl h
  | ldyAbsx w => exact debit_of_exec_eq (ldyAbsoluteXResult w s).2 rfl h
  | jsr w => exact debit_of_exec_eq (exec_jsr_below_top w (sp_ne_top_of_exec_jsr h)) rfl h

/-- A step that ends in a new state debits between 2 and 6 cycles (46_exec_loop.md R182). -/
theorem step_debit_bounds (h : step s = .next t) : 2 ≤ s.cyc - t.cyc ∧ s.cyc - t.cyc ≤ 6 := by
  obtain ⟨i, hexec⟩ := exec_of_step h
  rw [exec_debit hexec]
  exact costOf_bounds i s

end Sys2Proof.Machine

namespace Sys2Proof.Claims

open Sys2Proof.Machine

/-- Settles O32: each instruction's own result says what it debits, and only an indexed access adds the page-cross
cycle, to a base cost of at most 5. -/
theorem instructionCosts : Obligations.InstructionCosts :=
  fun i s _ h => ⟨exec_debit h, costOf_bounds i s⟩

end Sys2Proof.Claims
end

section
/-! SUPPORT. The loop of `Exec` (46_exec_loop.md R181): its bound is never felt, since every step debits the counter, so
it unrolls as the spec's `while` does; and what a call answers, from where its loop ends (R187, R188). -/

namespace Sys2Proof.Machine

variable {s t : State}

/-! ### The bound of the loop -/

theorem loopWhile_refused {r : Refusal} (k : Nat) (h : 0 < s.cyc) (hs : step s = .refused r) :
    loopWhile (k + 1) s = .refused r := by
  have hs' : stepPair s = .refused r := hs
  simp [loopWhile, h, hs']

/-- A step from a counter that `k + 1` bounds leaves one that `k` bounds. -/
theorem toNat_cyc_le_of_step {k : Nat} (hk : s.cyc.toNat ≤ k + 1) (h : step s = .next t) : t.cyc.toNat ≤ k := by
  obtain ⟨hdebit, -⟩ := step_debit_bounds h
  omega

/-- Any two bounds on the counter give the same loop. -/
theorem loopWhile_eq_of_le {j k : Nat} (hj : s.cyc.toNat ≤ j) (hk : s.cyc.toNat ≤ k) :
    loopWhile j s = loopWhile k s := by
  induction j generalizing s k with
  | zero =>
    have hspent : ¬ 0 < s.cyc := by omega
    rw [loopWhile_spent 0 hspent, loopWhile_spent k hspent]
  | succ j ih =>
    by_cases hpos : 0 < s.cyc
    · obtain ⟨k, rfl⟩ : ∃ l, k = l + 1 := Nat.exists_eq_add_one.mpr (by omega)
      cases hstep : step s with
      | next u =>
        rw [loopWhile_next j hpos hstep, loopWhile_next k hpos hstep]
        exact ih (toNat_cyc_le_of_step hj hstep) (toNat_cyc_le_of_step hk hstep)
      | fault f => rw [loopWhile_fault j hpos hstep, loopWhile_fault k hpos hstep]
      | refused r => rw [loopWhile_refused j hpos hstep, loopWhile_refused k hpos hstep]
    · rw [loopWhile_spent (j + 1) hpos, loopWhile_spent k hpos]

theorem runLoop_eq_loopWhile {k : Nat} (hk : s.cyc.toNat ≤ k) : runLoop s = loopWhile k s :=
  loopWhile_eq_of_le le_rfl hk

/-! ### The loop unrolled -/

theorem runLoop_spent (h : ¬ 0 < s.cyc) : runLoop s = .next s := loopWhile_spent _ h

theorem runLoop_next (h : 0 < s.cyc) (hs : step s = .next t) : runLoop s = runLoop t := by
  have hbound : s.cyc.toNat ≤ s.cyc.toNat + 1 := Nat.le_succ _
  rw [runLoop_eq_loopWhile hbound, loopWhile_next _ h hs, runLoop_eq_loopWhile (toNat_cyc_le_of_step hbound hs)]

theorem runLoop_fault {f : Fault} (h : 0 < s.cyc) (hs : step s = .fault f) : runLoop s = .fault f := by
  rw [runLoop_eq_loopWhile (Nat.le_succ _), loopWhile_fault _ h hs]

theorem runLoop_refused {r : Refusal} (h : 0 < s.cyc) (hs : step s = .refused r) : runLoop s = .refused r := by
  rw [runLoop_eq_loopWhile (Nat.le_succ _), loopWhile_refused _ h hs]

/-! ### The call around the loop -/

theorem runExec_of_runLoop_next {n : Int} (hs : s.Runnable) (h : runLoop (s.setCyc n) = .next t) :
    runExec n s = (.ok (n - t.cyc), t.setCyc 0) := by
  rw [runExec_runnable hs, h, endCall]

theorem runExec_of_runLoop_fault {n : Int} {f : Fault} (hs : s.Runnable) (h : runLoop (s.setCyc n) = .fault f) :
    runExec n s = (.faulted f, (s.setCyc n).raise f) := by
  rw [runExec_runnable hs, h, endCall]

/-- A budget that pays for nothing leaves the pair as it was (46_exec_loop.md R187). -/
theorem runExec_of_nonpos {n : Int} (hn : n ≤ 0) (hs : s.Runnable) : runExec n s = (.ok 0, s.setCyc 0) := by
  have hloop : runLoop (s.setCyc n) = .next (s.setCyc n) := runLoop_spent (Int.not_lt.mpr hn)
  rw [runExec_of_runLoop_next hs hloop, State.setCyc_cyc, Int.sub_self]
  rfl

theorem State.resetOp_runnable (s : State) : s.resetOp.Runnable := ⟨rfl, rfl⟩

end Sys2Proof.Machine

namespace Sys2Proof.Claims

open Sys2Proof.Machine

/-- Settles O50: a step that completes debits the counter, so the bound that is left still pays for the loop from where
it ends; and a runnable pair's call is the loop from a counter of `n`. -/
theorem execIsTheWhileLoop : Obligations.ExecIsTheWhileLoop := by
  refine ⟨fun s => ?_, fun n s => ⟨fun hr => ?_, fun f hr hf => ?_, fun hs => ⟨fun t h => ?_, fun f h => ?_⟩⟩⟩
  · by_cases hpos : 0 < s.cyc
    · rw [if_pos hpos]
      cases hstep : step s with
      | next t => exact runLoop_next hpos hstep
      | fault f => exact runLoop_fault hpos hstep
      | refused r => exact runLoop_refused hpos hstep
    · rw [if_neg hpos, runLoop_spent hpos]
  · rw [runExec_not_ready hr]
  · rw [runExec_latched hr hf]
  · rw [runExec_of_runLoop_next hs h]
    exact ⟨rfl, rfl⟩
  · rw [runExec_of_runLoop_fault hs h]

/-- Settles O48: the two tests at the start of `Exec` answer before any fetch, and `Reset` passes both. -/
theorem unrunnablePairDoesNothing : Obligations.UnrunnablePairDoesNothing :=
  fun n s => ⟨fun hr => runExec_not_ready hr n, fun _ hr hf => runExec_latched hr hf n, s.resetOp_runnable,
    State.constructed_ready⟩

/-- Settles O52: the loop's first test fails, so the call ends where it began. -/
theorem nonPositiveBudgetRunsNothing : Obligations.NonPositiveBudgetRunsNothing := by
  intro n s hn hs
  rw [runExec_of_nonpos hn hs]
  exact ⟨rfl, rfl⟩

end Sys2Proof.Claims
end

section
/-! SUPPORT. The reset state (10_state.md R33, 70_reset_and_hazards.md R230, R233): every cell reads 0x00, which is no
handled opcode. -/

namespace Sys2Proof.Machine

open Sys2Proof.Claims

theorem hostOp_reset (s : State) : hostOp .reset s = (.done, s.resetOp) := rfl

theorem State.resetOp_read (s : State) (a : Nat) : s.resetOp.mem.read a = 0x00#8 := by
  rw [State.resetOp_mem, Memory.read_nil]

/-- The opcode byte right after `Reset`, whatever budget a call then sets. -/
theorem State.resetOp_setCyc_opcode (s : State) (n : Int) : (s.resetOp.setCyc n).opcode = 0x00#8 :=
  s.resetOp_read Config.pcReset.toNat

/-- 0x00 would be BRK, which the hardware does not have (00_scope.md R5). -/
theorem step_of_opcode_zero {s : State} (hs : s.Runnable) (hop : s.opcode = 0x00#8) :
    step s = .fault (.unknownOpcode 0x00#8 s.pc) := by
  have hunhandled : s.opcode ∉ handledOpcodes := by
    rw [hop]
    decide
  rw [step_of_opcode_unhandled hs hunhandled, hop]

/-- The budget a call sets does not matter to the step; a budget of 0 is the reset pair itself. -/
theorem step_resetOp_setCyc (s : State) (n : Int) :
    step (s.resetOp.setCyc n) = .fault (.unknownOpcode 0x00#8 Config.pcReset) :=
  step_of_opcode_zero s.resetOp_runnable (s.resetOp_setCyc_opcode n)

end Sys2Proof.Machine

namespace Sys2Proof.Claims

open Sys2Proof.Machine

/-- Settles O44: the byte at 0xFFFC is the unhandled 0x00, and a positive budget lets the call reach that first step. -/
theorem freshlyResetPairFaults : Obligations.FreshlyResetPairFaults := by
  intro s
  rw [hostOp_reset]
  refine ⟨s.resetOp_read, step_resetOp_setCyc s 0, fun n hn => ?_⟩
  exact runExec_of_first_step_fault hn s.resetOp_runnable (step_resetOp_setCyc s n)

/-- Settles O43: the rows of the table of R33, one by one. -/
theorem resetLeaves : Obligations.ResetLeaves := by
  intro s
  rw [hostOp_reset]
  exact ⟨rfl, s.resetOp_pc, s.resetOp_sp, s.resetOp_a, s.resetOp_x, s.resetOp_y, s.resetOp_flagC, s.resetOp_flagZ,
    s.resetOp_flagI, s.resetOp_flagD, s.resetOp_flagB, s.resetOp_flagV, s.resetOp_flagN, s.resetOp_ready,
    s.resetOp_fault, s.resetOp_read⟩

end Sys2Proof.Claims
end

section
/-! SUPPORT. The round trip between instructions and bytes (30_encoding.md R80 to R84): the encoding the opcode table gives
an instruction is the one its own rule gives, and the decoder undoes and is undone by it. -/

namespace Sys2Proof

/-! ### From an instruction to its bytes and back -/

theorem decode_encodeF1 {op : Byte} {make : Byte → Instr} (b : Byte) (rest : List Byte)
    (h : formOf op = some (.f1 make)) : decode (encodeF1 op b ++ rest) = .ok (make b, rest) :=
  decode_of_f1 rest h

theorem decode_encodeF2 {op : Byte} {make : Word → Instr} (w : Word) (rest : List Byte)
    (h : formOf op = some (.f2 make)) : decode (encodeF2 op w ++ rest) = .ok (make w, rest) := by
  have hbytes : decode (encodeF2 op w ++ rest) =
      .ok (make (Machine.wordOf (Machine.lowByte w) (Machine.highByte w)), rest) := decode_of_f2 rest h
  rw [hbytes, Machine.wordOf_low_high]

theorem decode_encode (i : Instr) (rest : List Byte) : decode (encode i ++ rest) = .ok (i, rest) := by
  cases i with
  | nop => exact decode_of_f0 rest formOf_nop
  | ldaIm b => exact decode_encodeF1 b rest formOf_ldaIm
  | ldaZp b => exact decode_encodeF1 b rest formOf_ldaZp
  | ldaZpx b => exact decode_encodeF1 b rest formOf_ldaZpx
  | ldaAbs w => exact decode_encodeF2 w rest formOf_ldaAbs
  | ldaAbsx w => exact decode_encodeF2 w rest formOf_ldaAbsx
  | ldaAbsy w => exact decode_encodeF2 w rest formOf_ldaAbsy
  | ldaIndx b => exact decode_encodeF1 b rest formOf_ldaIndx
  | ldaIndy b => exact decode_encodeF1 b rest formOf_ldaIndy
  | ldxIm b => exact decode_encodeF1 b rest formOf_ldxIm
  | ldxZp b => exact decode_encodeF1 b rest formOf_ldxZp
  | ldxZpy b => exact decode_encodeF1 b rest formOf_ldxZpy
  | ldxAbs w => exact decode_encodeF2 w rest formOf_ldxAbs
  | ldxAbsy w => exact decode_encodeF2 w rest formOf_ldxAbsy
  | ldyIm b => exact decode_encodeF1 b rest formOf_ldyIm
  | ldyZp b => exact decode_encodeF1 b rest formOf_ldyZp
  | ldyZpx b => exact decode_encodeF1 b rest formOf_ldyZpx
  | ldyAbs w => exact decode_encodeF2 w rest formOf_ldyAbs
  | ldyAbsx w => exact decode_encodeF2 w rest formOf_ldyAbsx
  | jsr w => exact decode_encodeF2 w rest formOf_jsr

/-! ### From bytes to an instruction and back -/

/-- Each row of the table says the same bytes as the rule of the instruction it makes: the opcode, then as many operand
bytes as the format has. -/
theorem encode_fill {op : Byte} {f : Form} (h : formOf op = some f) (b1 b2 : Byte) :
    encode (f.fill b1 b2) = op :: [b1, b2].take (f.length - 1) := by
  have hrows : ∀ row ∈ opcodeTable, encode (row.2.fill b1 b2) = row.1 :: [b1, b2].take (row.2.length - 1) := by
    simp [opcodeTable, Form.fill, Form.length, encode, encodeF1, encodeF2]
  exact hrows _ (formOf_mem h)

/-- Everything a list that decodes can be: an opcode byte with a row, the operand bytes of its format, and the rest. -/
theorem decode_ok_cases {bytes rest : List Byte} {i : Instr} (h : decode bytes = .ok (i, rest)) :
    ∃ op f b1 b2, formOf op = some f ∧ i = f.fill b1 b2 ∧
      bytes = op :: ([b1, b2].take (f.length - 1) ++ rest) := by
  unfold decode at h
  split at h
  · cases h
  · next op tail =>
    split at h
    · cases h
    · next hform =>
      cases h
      exact ⟨op, _, 0#8, 0#8, hform, rfl, rfl⟩
    · next make hform =>
      split at h
      · next b _ =>
        cases h
        exact ⟨op, _, b, 0#8, hform, rfl, rfl⟩
      · cases h
    · next make hform =>
      split at h
      · next lo hi _ =>
        cases h
        exact ⟨op, _, lo, hi, hform, rfl, rfl⟩
      · cases h

theorem eq_encode_append_of_decode {bytes rest : List Byte} {i : Instr} (h : decode bytes = .ok (i, rest)) :
    bytes = encode i ++ rest := by
  obtain ⟨op, f, b1, b2, hform, rfl, rfl⟩ := decode_ok_cases h
  rw [encode_fill hform, List.cons_append]

end Sys2Proof

namespace Sys2Proof.Claims

/-- Settles O1: each instruction's bytes begin with the opcode of its own row, whose format reads the operand back. -/
theorem decodeInvertsEncode : Obligations.DecodeInvertsEncode := decode_encode

/-- Settles O2: what the decoder read is a row's opcode and operand bytes, and those are the instruction's encoding. -/
theorem decodedBytesAreTheEncoding : Obligations.DecodedBytesAreTheEncoding :=
  fun _ _ _ h => eq_encode_append_of_decode h

/-- Settles O3: the eight words are the encodings of the instructions they stand for. -/
theorem opcodeWordsDecode : Obligations.OpcodeWordsDecode :=
  ⟨decode_encode .nop [], decode_encode (.ldaIm 0x84#8) [], decode_encode (.ldaAbsx 0x4402#16) [],
    decode_encode (.ldxZpy 0x80#8) [], decode_encode (.ldxAbs 0x3000#16) [], decode_encode (.ldyZpx 0xF0#8) [],
    decode_encode (.ldyAbsx 0x20FF#16) [], decode_encode (.jsr 0x1234#16) []⟩

end Sys2Proof.Claims
end

section
/-! SUPPORT. The whole effect of an instruction, said once for all twenty: NOP moves on, JSR jumps, and every other loads one
byte into its destination, moves on by its length and debits its cost. What an instruction leaves unchanged follows. -/

namespace Sys2Proof.Machine

open Sys2Proof.Claims

variable {s t : State}

/-! ### What a load leaves unchanged -/

section
variable (r : Reg) (v : Byte) (s : State)

@[simp] theorem load_pc : (load r v s).pc = s.pc := by cases r <;> rfl
@[simp] theorem load_flagC : (load r v s).flagC = s.flagC := by cases r <;> rfl
@[simp] theorem load_flagI : (load r v s).flagI = s.flagI := by cases r <;> rfl
@[simp] theorem load_flagD : (load r v s).flagD = s.flagD := by cases r <;> rfl
@[simp] theorem load_flagB : (load r v s).flagB = s.flagB := by cases r <;> rfl
@[simp] theorem load_flagV : (load r v s).flagV = s.flagV := by cases r <;> rfl
@[simp] theorem load_mem : (load r v s).mem = s.mem := by cases r <;> rfl
@[simp] theorem load_ready : (load r v s).ready = s.ready := by cases r <;> rfl
@[simp] theorem load_fault : (load r v s).fault = s.fault := by cases r <;> rfl
@[simp] theorem load_pageCross : (load r v s).pageCross = s.pageCross := by cases r <;> rfl
@[simp] theorem load_free : (load r v s).free = s.free := by cases r <;> rfl

/-- A load neither reads nor writes the counter. -/
theorem load_setCyc (c : Int) : load r v (s.setCyc c) = (load r v s).setCyc c := by cases r <;> rfl

end

theorem load_a_of_ne {r : Reg} (h : r ≠ .a) (v : Byte) (s : State) : (load r v s).a = s.a := by
  cases r with
  | a => exact absurd rfl h
  | x => rfl
  | y => rfl

theorem load_x_of_ne {r : Reg} (h : r ≠ .x) (v : Byte) (s : State) : (load r v s).x = s.x := by
  cases r with
  | a => rfl
  | x => exact absurd rfl h
  | y => rfl

theorem load_y_of_ne {r : Reg} (h : r ≠ .y) (v : Byte) (s : State) : (load r v s).y = s.y := by
  cases r with
  | a => rfl
  | x => rfl
  | y => exact absurd rfl h

/-! ### The effect of each instruction -/

theorem destination_eq_none {i : Instr} : destination i = none ↔ i = .nop ∨ ∃ w, i = .jsr w := by
  cases i <;> simp [destination]

theorem exec_nop_advanced (s : State) : exec .nop s = .next (s.advanced 1 2) := by
  rw [exec_nop, State.fetched_eq_advanced, State.tick_advanced]
  rfl

/-- An instruction with a destination loads one byte into it, the same whatever the counter holds (46_exec_loop.md R192),
moves on by its length and debits its cost. -/
theorem exec_of_destination {i : Instr} {r : Reg} (h : destination i = some r) (s : State) :
    ∃ v, ∀ c, exec i (s.setCyc c) =
      .next (load r v ((s.setCyc c).advanced (encode i).length (costOf i s))) := by
  cases i with
  | nop => cases h
  | jsr w => cases h
  | ldaIm b =>
    cases h
    exact ⟨b, fun c => by rw [exec_ldaIm, loadImmediate_immediate]; rfl⟩
  | ldaZp b =>
    cases h
    exact ⟨s.mem.read b.toNat, fun c => by rw [exec_ldaZp, loadFrom_zeroPage]; rfl⟩
  | ldaZpx b =>
    cases h
    exact ⟨s.mem.read ((b.toNat + s.x.toNat) % 256), fun c => by rw [exec_ldaZpx, loadFrom_zeroPageIndexed]; rfl⟩
  | ldaAbs w =>
    cases h
    exact ⟨s.mem.read w.toNat, fun c => by rw [exec_ldaAbs, loadFrom_absolute]; rfl⟩
  | ldaAbsx w =>
    cases h
    exact ⟨s.mem.read ((w.toNat + s.x.toNat) % 65536), fun c => by rw [exec_ldaAbsx, loadFrom_absoluteIndexed]; rfl⟩
  | ldaAbsy w =>
    cases h
    exact ⟨s.mem.read ((w.toNat + s.y.toNat) % 65536), fun c => by rw [exec_ldaAbsy, loadFrom_absoluteIndexed]; rfl⟩
  | ldaIndx b =>
    cases h
    exact ⟨s.mem.read (pointerAt s ((b.toNat + s.x.toNat) % 256)), fun c => by rw [exec_ldaIndx, loadFrom_indirectX]; rfl⟩
  | ldaIndy b =>
    cases h
    exact ⟨s.mem.read ((pointerAt s b.toNat + s.y.toNat) % 65536), fun c => by rw [exec_ldaIndy, loadFrom_indirectY]; rfl⟩
  | ldxIm b =>
    cases h
    exact ⟨b, fun c => by rw [exec_ldxIm, loadImmediate_immediate]; rfl⟩
  | ldxZp b =>
    cases h
    exact ⟨s.mem.read b.toNat, fun c => by rw [exec_ldxZp, loadFrom_zeroPage]; rfl⟩
  | ldxZpy b =>
    cases h
    exact ⟨s.mem.read ((b.toNat + s.y.toNat) % 256), fun c => by rw [exec_ldxZpy, loadFrom_zeroPageIndexed]; rfl⟩
  | ldxAbs w =>
    cases h
    exact ⟨s.mem.read w.toNat, fun c => by rw [exec_ldxAbs, loadFrom_absolute]; rfl⟩
  | ldxAbsy w =>
    cases h
    exact ⟨s.mem.read ((w.toNat + s.y.toNat) % 65536), fun c => by rw [exec_ldxAbsy, loadFrom_absoluteIndexed]; rfl⟩
  | ldyIm b =>
    cases h
    exact ⟨b, fun c => by rw [exec_ldyIm, loadImmediate_immediate]; rfl⟩
  | ldyZp b =>
    cases h
    exact ⟨s.mem.read b.toNat, fun c => by rw [exec_ldyZp, loadFrom_zeroPage]; rfl⟩
  | ldyZpx b =>
    cases h
    exact ⟨s.mem.read ((b.toNat + s.x.toNat) % 256), fun c => by rw [exec_ldyZpx, loadFrom_zeroPageIndexed]; rfl⟩
  | ldyAbs w =>
    cases h
    exact ⟨s.mem.read w.toNat, fun c => by rw [exec_ldyAbs, loadFrom_absolute]; rfl⟩
  | ldyAbsx w =>
    cases h
    exact ⟨s.mem.read ((w.toNat + s.x.toNat) % 65536), fun c => by rw [exec_ldyAbsx, loadFrom_absoluteIndexed]; rfl⟩

/-- Everything an instruction that ends in a new state leaves. -/
theorem exec_result_cases {i : Instr} (h : exec i s = .next t) :
    (i = .nop ∧ t = s.advanced 1 2) ∨
    (∃ r v, destination i = some r ∧ t = load r v (s.advanced (encode i).length (costOf i s))) ∨
    (∃ w, i = .jsr w ∧ s.sp ≠ 0xFFFF#16 ∧
      t = { s with pc := w, sp := s.sp + 2#16, cyc := s.cyc - 6, mem := s.returnStored }) := by
  cases hdest : destination i with
  | some r =>
    obtain ⟨v, hload⟩ := exec_of_destination hdest s
    cases (hload s.cyc).symm.trans h
    exact .inr (.inl ⟨r, v, rfl, rfl⟩)
  | none =>
    obtain rfl | ⟨w, rfl⟩ := destination_eq_none.mp hdest
    · cases (exec_nop_advanced s).symm.trans h
      exact .inl ⟨rfl, rfl⟩
    · have hsp := sp_ne_top_of_exec_jsr h
      cases (exec_jsr_below_top w hsp).symm.trans h
      exact .inr (.inr ⟨w, rfl, hsp, rfl⟩)

/-- An instruction completes unless it is a JSR whose stack write would pass the top of memory (60_exceptions.md R203). -/
theorem exec_completes {i : Instr} (h : ∀ w, i = .jsr w → s.sp ≠ 0xFFFF#16) : ∃ t, exec i s = .next t := by
  cases hdest : destination i with
  | some r =>
    obtain ⟨v, hload⟩ := exec_of_destination hdest s
    exact ⟨_, hload s.cyc⟩
  | none =>
    obtain rfl | ⟨w, rfl⟩ := destination_eq_none.mp hdest
    · exact ⟨_, exec_nop s⟩
    · exact ⟨_, exec_jsr_below_top w (h w rfl)⟩

/-- The counter does not matter to an instruction but for being debited (46_exec_loop.md R192). -/
theorem exec_setCyc {i : Instr} (h : exec i s = .next t) (c : Int) :
    exec i (s.setCyc c) = .next (t.setCyc (c - (s.cyc - t.cyc))) := by
  rw [exec_debit h]
  cases hdest : destination i with
  | some r =>
    obtain ⟨v, hload⟩ := exec_of_destination hdest s
    cases (hload s.cyc).symm.trans h
    rw [hload c, ← load_setCyc]
    rfl
  | none =>
    obtain rfl | ⟨w, rfl⟩ := destination_eq_none.mp hdest
    · cases (exec_nop_advanced s).symm.trans h
      exact exec_nop_advanced (s.setCyc c)
    · have hsp := sp_ne_top_of_exec_jsr h
      cases (exec_jsr_below_top w hsp).symm.trans h
      exact exec_jsr_below_top w (s := s.setCyc c) hsp

end Sys2Proof.Machine

namespace Sys2Proof.Claims

open Sys2Proof.Machine

/-- Settles O28: a load sets `Z` and `N` alone, and NOP and JSR touch no flag. -/
theorem flagsOutsideLoadsAreKept : Obligations.FlagsOutsideLoadsAreKept := by
  intro i s t h
  obtain ⟨-, rfl⟩ | ⟨r, v, hdest, rfl⟩ | ⟨w, -, -, rfl⟩ := exec_result_cases h
  · exact ⟨rfl, rfl, rfl, rfl, rfl, fun _ => ⟨rfl, rfl⟩⟩
  · refine ⟨load_flagC .., load_flagI .., load_flagD .., load_flagB .., load_flagV .., fun hnone => ?_⟩
    cases hdest.symm.trans hnone
  · exact ⟨rfl, rfl, rfl, rfl, rfl, fun _ => ⟨rfl, rfl⟩⟩

/-- Settles O29: a load writes its destination alone, and NOP and JSR have none. -/
theorem registersChangeOnlyByTheirLoads : Obligations.RegistersChangeOnlyByTheirLoads := by
  intro i s t h
  obtain ⟨-, rfl⟩ | ⟨r, v, hdest, rfl⟩ | ⟨w, -, -, rfl⟩ := exec_result_cases h
  · exact ⟨fun _ => rfl, fun _ => rfl, fun _ => rfl⟩
  · rw [hdest]
    exact ⟨fun hne => load_a_of_ne (ne_of_apply_ne some hne) .., fun hne => load_x_of_ne (ne_of_apply_ne some hne) ..,
      fun hne => load_y_of_ne (ne_of_apply_ne some hne) ..⟩
  · exact ⟨fun _ => rfl, fun _ => rfl, fun _ => rfl⟩

/-- Settles O30: only a jump stores anything, and it stores the return address in the two cells at the old `SP`. -/
theorem onlyJsrWritesMemoryAndSp : Obligations.OnlyJsrWritesMemoryAndSp := by
  intro i s t h
  obtain ⟨rfl, rfl⟩ | ⟨r, v, hdest, rfl⟩ | ⟨w, rfl, -, rfl⟩ := exec_result_cases h
  · exact ⟨fun _ => ⟨rfl, rfl⟩, nofun⟩
  · refine ⟨fun _ => ⟨load_mem .., load_sp ..⟩, ?_⟩
    rintro w rfl
    cases hdest
  · exact ⟨fun hne => absurd rfl (hne w), fun _ _ =>
      ⟨toNat_add_two s.sp, fun _ hlower hupper => State.returnStored_read_other hlower hupper⟩⟩

/-- Settles O31: NOP and the loads advance `PC` by their own length, and a jump sets it. -/
theorem controlFlowIsSequentialButForJsr : Obligations.ControlFlowIsSequentialButForJsr := by
  intro i s t h
  obtain ⟨rfl, rfl⟩ | ⟨r, v, hdest, rfl⟩ | ⟨w, rfl, -, rfl⟩ := exec_result_cases h
  · exact ⟨fun _ => BitVec.toNat_ofNat .., nofun⟩
  · refine ⟨fun _ => ?_, ?_⟩
    · rw [load_pc]
      exact BitVec.toNat_ofNat ..
    · rintro w rfl
      cases hdest
  · refine ⟨fun hne => absurd rfl (hne w), fun w' hw' => ?_⟩
    cases hw'
    rfl

/-- Settles O55: the jump's target is where the return address was just stored, low byte first. -/
theorem fetchSeesWhatJsrWrote : Obligations.FetchSeesWhatJsrWrote := by
  intro s t h
  cases (exec_jsr_below_top s.sp (sp_ne_top_of_exec_jsr h)).symm.trans h
  exact ⟨rfl, State.returnStored_read_lower, State.returnStored_read_upper⟩

end Sys2Proof.Claims
end

section
/-! SUPPORT. The step of a runnable pair (46_exec_loop.md R182, 60_exceptions.md R200 to R203): it runs the instruction whose
bytes stand at `PC`, and it ends in one of three ways, which the opcode byte and `SP` decide. -/

namespace Sys2Proof.Machine

open Sys2Proof.Claims

variable {s t : State}

@[simp] theorem instr_wellFormed (i : Instr) : i.wellFormed = true := by cases i <;> rfl

/-! ### The bytes at `PC` -/

theorem State.code_eq (s : State) : s.code =
    [s.mem.read s.pc.toNat, s.mem.read ((s.pc.toNat + 1) % 65536), s.mem.read ((s.pc.toNat + 2) % 65536)] := by
  rw [State.code, State.opcode, State.cell, State.cell, State.cell, BitVec.toNat_add, BitVec.toNat_add]
  rfl

theorem step_of_decode {i : Instr} {rest : List Byte} (hs : s.Runnable) (h : decode s.code = .ok (i, rest)) :
    step s = exec i s := by
  rw [step_runnable hs, stepInstr_handled (instr_eq_some_iff.mpr ⟨rest, h⟩)]

/-- Where JSR is decoded its opcode byte stands at `PC`. -/
theorem opcode_of_instr_jsr {w : Word} (h : s.instr = some (.jsr w)) : s.opcode = 0x20#8 := by
  obtain ⟨rest, hdecode⟩ := instr_eq_some_iff.mp h
  have hbytes : s.code = encodeF2 0x20#8 w ++ rest := eq_encode_append_of_decode hdecode
  exact (List.cons.inj hbytes).1

/-! ### An instruction word placed at `PC` -/

/-- Three bytes placed at consecutive addresses, which differ modulo 2^16, are read back. -/
theorem read_placeBytes_three (m : Memory) (w : Word) (b0 b1 b2 : Byte) :
    (placeBytes w [b0, b1, b2] m).read w.toNat = b0 ∧
      (placeBytes w [b0, b1, b2] m).read (w + 1#16).toNat = b1 ∧
      (placeBytes w [b0, b1, b2] m).read (w + 2#16).toNat = b2 := by
  have h01 : w.toNat ≠ (w + 1#16).toNat := by bv_omega
  have h02 : w.toNat ≠ (w + 2#16).toNat := by bv_omega
  have h12 : (w + 1#16).toNat ≠ (w + 2#16).toNat := by bv_omega
  have hplaced : placeBytes w [b0, b1, b2] m =
      ((m.write w.toNat b0).write (w + 1#16).toNat b1).write (w + 2#16).toNat b2 := by
    simp only [placeBytes, BitVec.add_assoc]
    rfl
  rw [hplaced]
  refine ⟨?_, ?_, Memory.read_write_same ..⟩
  · rw [Memory.read_write_other _ _ h02, Memory.read_write_other _ _ h01, Memory.read_write_same]
  · rw [Memory.read_write_other _ _ h12, Memory.read_write_same]

theorem State.withFetchWord_code (s : State) (nbits w : Nat) : (s.withFetchWord nbits w).code = tableBytes nbits w := by
  obtain ⟨h0, h1, h2⟩ := read_placeBytes_three s.mem s.pc (BitVec.ofNat 8 (w % 2 ^ nbits))
    (BitVec.ofNat 8 (w % 2 ^ nbits / 256)) (BitVec.ofNat 8 (w % 2 ^ nbits / 65536))
  exact congrArg₂ _ h0 (congrArg₂ _ h1 (congrArg₂ _ h2 rfl))

theorem State.withFetchWord_runnable (s : State) (nbits w : Nat) : (s.withFetchWord nbits w).Runnable := ⟨rfl, rfl⟩

theorem decode_of_decodeTableWord {nbits w : Nat} {i : Instr} (h : decodeTableWord nbits w = some i) :
    ∃ rest, decode (tableBytes nbits w) = .ok (i, rest) := by
  unfold decodeTableWord at h
  split at h
  · next j rest hdecode =>
    cases h
    exact ⟨rest, hdecode⟩
  · cases h

/-! ### The three ways a step ends -/

theorem opcode_handled_of_jsrPastTop (h : s.JsrPastTop) : s.opcode ∈ handledOpcodes := by
  rw [h.1]
  decide

theorem step_completes (hs : s.Runnable) (hop : s.opcode ∈ handledOpcodes) (hjsr : ¬ s.JsrPastTop) :
    ∃ t, step s = .next t := by
  have hinstr : s.instr ≠ none := fun hnone => formOf_eq_none.mp (instr_eq_none.mp hnone) hop
  obtain ⟨i, hi⟩ := Option.ne_none_iff_exists'.mp hinstr
  rw [step_runnable hs, stepInstr_handled hi]
  refine exec_completes fun w hw htop => hjsr ⟨?_, htop⟩
  subst hw
  exact opcode_of_instr_jsr hi

/-- Everything a step of a runnable pair can do, and exactly when. -/
theorem step_runnable_cases (hs : s.Runnable) :
    (s.opcode ∉ handledOpcodes ∧ ¬ s.JsrPastTop ∧ step s = .fault (.unknownOpcode s.opcode s.pc)) ∨
    (s.opcode ∈ handledOpcodes ∧ s.JsrPastTop ∧ step s = .fault (.outOfBounds 0x10000)) ∨
    (s.opcode ∈ handledOpcodes ∧ ¬ s.JsrPastTop ∧ ∃ t, step s = .next t) := by
  by_cases hjsr : s.JsrPastTop
  · exact .inr (.inl ⟨opcode_handled_of_jsrPastTop hjsr, hjsr, step_of_jsrPastTop hs hjsr⟩)
  · by_cases hop : s.opcode ∈ handledOpcodes
    · exact .inr (.inr ⟨hop, hjsr, step_completes hs hop hjsr⟩)
    · exact .inl ⟨hop, hjsr, step_of_opcode_unhandled hs hop⟩

theorem step_ne_refused (hs : s.Runnable) (r : Refusal) : step s ≠ .refused r := by
  obtain ⟨-, -, h⟩ | ⟨-, -, h⟩ | ⟨-, -, t, h⟩ := step_runnable_cases hs <;> rw [h] <;> nofun

/-! ### What every completed step keeps -/

/-- No instruction touches `ready`, the latch, the parameter or the count of free values. -/
theorem exec_keeps {i : Instr} (h : exec i s = .next t) :
    t.ready = s.ready ∧ t.fault = s.fault ∧ t.pageCross = s.pageCross ∧ t.free = s.free := by
  obtain ⟨-, rfl⟩ | ⟨r, v, -, rfl⟩ | ⟨w, -, -, rfl⟩ := exec_result_cases h
  · exact ⟨rfl, rfl, rfl, rfl⟩
  · exact ⟨load_ready .., load_fault .., load_pageCross .., load_free ..⟩
  · exact ⟨rfl, rfl, rfl, rfl⟩

theorem runnable_after_step (h : step s = .next t) : t.Runnable := by
  obtain ⟨i, hexec⟩ := exec_of_step h
  obtain ⟨hready, hfault, -, -⟩ := exec_keeps hexec
  obtain ⟨hr, hf⟩ := runnable_of_step h
  exact ⟨hready.trans hr, hfault.trans hf⟩

end Sys2Proof.Machine

namespace Sys2Proof.Claims

open Sys2Proof.Machine

/-- Settles O5: the list decoder's instruction at `PC` is the one the step dispatches on. -/
theorem stepRunsDecodedInstruction : Obligations.StepRunsDecodedInstruction := by
  intro s i rest hs h
  rw [← s.code_eq] at h
  exact ⟨instr_wellFormed i, step_of_decode hs h⟩

/-- Settles O60: the placed bytes are read back, so they are what the step decodes. -/
theorem placedInstructionRuns : Obligations.PlacedInstructionRuns := by
  intro s nbits w i h
  obtain ⟨rest, hdecode⟩ := decode_of_decodeTableWord h
  rw [← s.withFetchWord_code] at hdecode
  exact step_of_decode (s.withFetchWord_runnable nbits w) hdecode

/-- Settles O46: of the three ways a step ends, one is a next state. -/
theorem stepCompletesExactlyWhen : Obligations.StepCompletesExactlyWhen := by
  intro s hs
  refine ⟨fun ⟨t, ht⟩ => ?_, fun ⟨hop, hjsr⟩ => step_completes hs hop hjsr⟩
  obtain ⟨-, -, h⟩ | ⟨-, -, h⟩ | ⟨hop, hjsr, -⟩ := step_runnable_cases hs
  · cases h.symm.trans ht
  · cases h.symm.trans ht
  · exact ⟨hop, hjsr⟩

/-- Settles O47: of the three ways a step ends, two are faults, and they exclude each other. -/
theorem onlyTwoFaults : Obligations.OnlyTwoFaults := by
  refine fun s hs => ⟨step_ne_refused hs, fun f => ⟨fun hf => ?_, ?_⟩⟩
  · obtain ⟨hop, -, h⟩ | ⟨-, ⟨hop, hsp⟩, h⟩ | ⟨-, -, t, h⟩ := step_runnable_cases hs
    · cases h.symm.trans hf
      exact .inl ⟨hop, rfl⟩
    · cases h.symm.trans hf
      exact .inr ⟨hop, hsp, rfl⟩
    · cases h.symm.trans hf
  · rintro (⟨hop, rfl⟩ | ⟨hop, hsp, rfl⟩)
    · exact step_of_opcode_unhandled hs hop
    · exact step_of_jsrPastTop hs ⟨hop, hsp⟩

/-- Settles O45: a step moves `SP` by 0 or 2, and 0xFFFF, where alone JSR faults, is odd. -/
theorem spStaysEven : Obligations.SpStaysEven := by
  refine fun s heven hs => ⟨fun t h => spEven_of_step heven h, fun f hf => ?_⟩
  obtain ⟨-, -, h⟩ | ⟨-, ⟨-, htop⟩, -⟩ | ⟨-, -, t, h⟩ := step_runnable_cases hs
  · cases h.symm.trans hf
    rfl
  · exact absurd htop heven.sp_ne_top
  · cases h.symm.trans hf

/-- Settles O56: a pair that is not runnable has no next state, and no instruction touches what makes it runnable. -/
theorem stepKeepsThePairRunnable : Obligations.StepKeepsThePairRunnable := by
  intro s t h
  obtain ⟨i, hexec⟩ := exec_of_step h
  obtain ⟨-, -, hpolicy, hfree⟩ := exec_keeps hexec
  obtain ⟨hlower, hupper⟩ := step_debit_bounds h
  exact ⟨runnable_of_step h, runnable_after_step h, hpolicy, hfree, by omega, by omega⟩

end Sys2Proof.Claims
end

section
/-! SUPPORT. The canonical form of memory (20_memory.md R50 to R53): a memory in it lists exactly the cells that do not read
0x00, and instructions keep it. -/

namespace Sys2Proof.Machine

variable {s t : State} {m k : Memory}

/-! ### Canonical memories are their reads -/

/-- A listed cell is read: no other cell is listed at its address. -/
theorem Memory.read_of_listed (hm : m.Pairwise (fun c d => c.1 < d.1)) {c : Host.Cell} (hc : c ∈ m) :
    m.read c.1 = c.2 := by
  induction m with
  | nil => cases hc
  | cons d m ih =>
    obtain ⟨hd, hm⟩ := List.pairwise_cons.mp hm
    rw [Memory.read_cons]
    obtain rfl | hc := List.mem_cons.mp hc
    · rw [if_pos rfl]
    · rw [if_neg (Nat.ne_of_lt (hd c hc)), ih hm hc]

theorem Memory.listed_of_read_ne_zero {a : Nat} (h : m.read a ≠ 0#8) : (a, m.read a) ∈ m := by
  induction m with
  | nil => exact absurd rfl h
  | cons d m ih =>
    rw [Memory.read_cons] at h ⊢
    split at h
    · next hd =>
      rw [if_pos hd, ← hd]
      exact List.mem_cons_self
    · next hd =>
      rw [if_neg hd]
      exact List.mem_cons_of_mem _ (ih h)

/-- A canonical memory's cells are listed in every memory that reads alike. -/
theorem Memory.subset_of_read_eq (hm : m.wf) (h : ∀ a, a < Config.cap → m.read a = k.read a) : m ⊆ k := by
  intro c hc
  obtain ⟨hbound, hvalue⟩ := hm.2 c hc
  have hread : k.read c.1 = c.2 := (h c.1 hbound).symm.trans (Memory.read_of_listed hm.1 hc)
  have hlisted : (c.1, k.read c.1) ∈ k := Memory.listed_of_read_ne_zero (by rwa [hread])
  rwa [hread] at hlisted

theorem Memory.nodup_of_wf (hm : m.wf) : m.Nodup :=
  hm.1.imp fun hlt heq => Nat.ne_of_lt hlt (congrArg Prod.fst heq)

/-- Two canonical memories that list the same cells list them in the same order. -/
theorem Memory.eq_of_subset (hm : m.wf) (hk : k.wf) (hmk : m ⊆ k) (hkm : k ⊆ m) : m = k := by
  have hperm : m.Perm k :=
    (List.perm_ext_iff_of_nodup (Memory.nodup_of_wf hm) (Memory.nodup_of_wf hk)).mpr fun _ => ⟨@hmk _, @hkm _⟩
  exact hperm.eq_of_pairwise (fun _ _ _ _ hlt hgt => absurd hgt (Nat.lt_asymm hlt)) hm.1 hk.1

/-! ### Instructions keep the canonical form -/

theorem State.returnStored_wf (hm : s.MemoryCanonical) (hsp : s.sp ≠ 0xFFFF#16) : s.returnStored.wf := by
  have hupper : s.sp.toNat + 1 < Config.cap := Nat.not_le.mp fun h => hsp ((writeWord_bound s.sp).mp h)
  exact Memory.wf_write _ hupper (Memory.wf_write _ (Nat.lt_of_succ_lt hupper) hm)

theorem memoryCanonical_of_exec {i : Instr} (hm : s.MemoryCanonical) (h : exec i s = .next t) : t.MemoryCanonical := by
  obtain ⟨-, rfl⟩ | ⟨r, v, -, rfl⟩ | ⟨w, -, hsp, rfl⟩ := exec_result_cases h
  · exact hm
  · rw [State.MemoryCanonical, load_mem]
    exact hm
  · exact State.returnStored_wf hm hsp

theorem memoryCanonical_of_step (hm : s.MemoryCanonical) (h : step s = .next t) : t.MemoryCanonical := by
  obtain ⟨i, hexec⟩ := exec_of_step h
  exact memoryCanonical_of_exec hm hexec

end Sys2Proof.Machine

namespace Sys2Proof.Claims

open Sys2Proof.Machine

/-- Settles O39: only JSR writes memory, and both its writes are below the bound wherever it completes. -/
theorem stepKeepsMemoryCanonical : Obligations.StepKeepsMemoryCanonical :=
  fun _ _ hm h => memoryCanonical_of_step hm h

/-- Settles O41: the zeroed memory is canonical, and 0x0100 is even. -/
theorem resetMeetsTheInvariants : Obligations.ResetMeetsTheInvariants :=
  ⟨⟨rfl, rfl⟩, Memory.wf_zeroed, by decide⟩

/-- Settles O42: the two memories list the same cells, and both list them by rising address. -/
theorem canonicalMemoriesAreTheirReads : Obligations.CanonicalMemoriesAreTheirReads := by
  intro m k hm hk h
  have hmk : m ⊆ k := Memory.subset_of_read_eq hm h
  have hkm : k ⊆ m := Memory.subset_of_read_eq hk fun a ha => (h a ha).symm
  exact Memory.eq_of_subset hm hk hmk hkm

end Sys2Proof.Claims
end

section
/-! SUPPORT. The host's accesses between calls (46_exec_loop.md R191, 10_state.md R32, 20_memory.md R55): what a register or
flag holds after a write, and what the other registers, flags and memory hold. -/

namespace Sys2Proof.Machine

variable (s : State)

/-! ### Registers and flags by name -/

theorem hostOp_readReg (r : RegName) : hostOp (.readReg r) s = (.value (s.getRegName r), s) := rfl

theorem hostOp_readFlag (g : FlagName) : hostOp (.readFlag g) s = (.value (s.getFlag g).toNat, s) := rfl

theorem State.getRegName_setRegName (r q : RegName) (v : Nat) :
    (s.setRegName r v).getRegName q = if q = r then v % r.size else s.getRegName q := by
  cases r <;> cases q <;> rfl

theorem State.getFlag_setRegName (r : RegName) (v : Nat) (g : FlagName) :
    (s.setRegName r v).getFlag g = s.getFlag g := by
  cases r <;> rfl

theorem State.getFlag_setFlag (g h : FlagName) (b : Bool) :
    (s.setFlag g b).getFlag h = if h = g then b else s.getFlag h := by
  cases g <;> cases h <;> rfl

theorem State.getRegName_setFlag (g : FlagName) (b : Bool) (q : RegName) :
    (s.setFlag g b).getRegName q = s.getRegName q := by
  cases g <;> cases q <;> rfl

/-- A flag's value as the host writes it comes back as it was. -/
theorem toNat_beq_one {v : Nat} (h : v < 2) : (v == 1).toNat = v := by
  obtain rfl | rfl := Nat.le_one_iff_eq_zero_or_eq_one.mp (Nat.le_of_lt_succ h) <;> rfl

/-! ### Poke and peek -/

/-- A poke in bounds is seen by a peek of its own address alone. -/
theorem hostOp_peek_setMem_write {a : Nat} (b : Nat) (v : Byte) (ha : a < Config.cap) :
    (hostOp (.peek b) (s.setMem (s.mem.write a v))).1 =
      if b = a then .value v.toNat else (hostOp (.peek b) s).1 := by
  obtain hb | hb := Nat.lt_or_ge b Config.cap
  · rw [hostOp_peek_in_bounds hb, hostOp_peek_in_bounds hb, State.setMem_mem, Memory.read_write]
    split <;> rfl
  · have hne : b ≠ a := by omega
    rw [hostOp_peek_out_of_bounds hb, hostOp_peek_out_of_bounds hb, if_neg hne]

end Sys2Proof.Machine

namespace Sys2Proof.Claims

open Sys2Proof.Machine

/-- Settles O35: in bounds a poke is one write, read back at its own address alone; out of bounds both answer the fault. -/
theorem pokeThenPeek : Obligations.PokeThenPeek := by
  refine fun a b v s => ⟨fun hin => ?_, fun hout => ⟨hostOp_poke_out_of_bounds v hout, hostOp_peek_out_of_bounds hout⟩⟩
  rw [hostOp_poke_in_bounds v hin]
  exact ⟨rfl, hostOp_peek_setMem_write s b v hin⟩

/-- Settles O57: a register is a field of its own, and a value below its size fits it. -/
theorem hostWritesRegistersInRange : Obligations.HostWritesRegistersInRange := by
  refine ⟨fun r q v s => ⟨fun hin => ?_, hostOp_writeReg_out_of_range⟩,
    fun g h v s => ⟨fun hin => ?_, hostOp_writeFlag_out_of_range g⟩⟩
  · rw [hostOp_writeReg_in_range hin]
    refine ⟨?_, fun hne => ?_, s.getFlag_setRegName r v, s.setRegName_mem v r⟩
    · rw [hostOp_readReg, State.getRegName_setRegName, if_pos rfl, Nat.mod_eq_of_lt hin]
    · rw [hostOp_readReg, hostOp_readReg, State.getRegName_setRegName, if_neg hne]
  · rw [hostOp_writeFlag_in_range g (Nat.lt_succ_of_le hin)]
    refine ⟨?_, fun hne => ?_, s.getRegName_setFlag g _, s.setFlag_mem g _⟩
    · rw [hostOp_readFlag, State.getFlag_setFlag, if_pos rfl, toNat_beq_one (Nat.lt_succ_of_le hin)]
    · rw [State.getFlag_setFlag, if_neg hne]

end Sys2Proof.Claims
end

section
/-! SUPPORT. What the loop of `Exec` can do (46_exec_loop.md R181 to R193), said once: a loop that stops before its test does
met a step that stopped; a loop that ends has spent its counter; and what every step keeps, the loop keeps. -/

namespace Sys2Proof.Machine

variable {s t u : State} {k : Nat}

/-! ### Where the loop ends -/

/-- A loop that answers no next state ran some whole steps and then, the counter still positive, met a step that answered
the same. -/
theorem loopWhile_stopped {o : Host.Outcome State Fault Refusal} (h : loopWhile k s = o) (ho : ∀ t, o ≠ .next t) :
    ∃ j u, loopWhile j s = .next u ∧ 0 < u.cyc ∧ step u = o := by
  induction k generalizing s with
  | zero => exact absurd h.symm (ho s)
  | succ k ih =>
    by_cases hpos : 0 < s.cyc
    · cases hstep : step s with
      | next v =>
        rw [loopWhile_next k hpos hstep] at h
        obtain ⟨j, u, hrun, hu, hstop⟩ := ih h
        exact ⟨j + 1, u, (loopWhile_next j hpos hstep).trans hrun, hu, hstop⟩
      | fault f =>
        rw [loopWhile_fault k hpos hstep] at h
        exact ⟨0, s, loopWhile_zero, hpos, hstep.trans h⟩
      | refused r =>
        rw [loopWhile_refused k hpos hstep] at h
        exact ⟨0, s, loopWhile_zero, hpos, hstep.trans h⟩
    · rw [loopWhile_spent (k + 1) hpos] at h
      exact absurd h.symm (ho s)

/-- A loop that answers a next state found its counter spent, or made one step and went on. -/
theorem loopWhile_succ_next (h : loopWhile (k + 1) s = .next t) :
    (¬ 0 < s.cyc ∧ t = s) ∨ (0 < s.cyc ∧ ∃ u, step s = .next u ∧ loopWhile k u = .next t) := by
  by_cases hpos : 0 < s.cyc
  · cases hstep : step s with
    | next u => exact .inr ⟨hpos, u, rfl, (loopWhile_next k hpos hstep).symm.trans h⟩
    | fault f => cases (loopWhile_fault k hpos hstep).symm.trans h
    | refused r => cases (loopWhile_refused k hpos hstep).symm.trans h
  · cases (loopWhile_spent (k + 1) hpos).symm.trans h
    exact .inl ⟨hpos, rfl⟩

/-- A loop whose bound the counter does not exceed ends by its own test. -/
theorem cyc_nonpos_of_loopWhile_next (hk : s.cyc.toNat ≤ k) (h : loopWhile k s = .next t) : t.cyc ≤ 0 := by
  induction k generalizing s with
  | zero =>
    cases h
    omega
  | succ k ih =>
    obtain ⟨hspent, rfl⟩ | ⟨-, u, hstep, hrest⟩ := loopWhile_succ_next h
    · exact Int.not_lt.mp hspent
    · exact ih (toNat_cyc_le_of_step hk hstep) hrest

/-! ### What the loop keeps -/

/-- Whatever every step from a positive counter keeps, the loop keeps. -/
theorem loopWhile_keeps {P : State → Prop} (hkept : ∀ s t, P s → 0 < s.cyc → step s = .next t → P t) (hs : P s)
    (h : loopWhile k s = .next t) : P t := by
  induction k generalizing s with
  | zero =>
    cases h
    exact hs
  | succ k ih =>
    obtain ⟨-, rfl⟩ | ⟨hpos, u, hstep, hrest⟩ := loopWhile_succ_next h
    · exact hs
    · exact ih (hkept s u hs hpos hstep) hrest

theorem runnable_of_loopWhile_next (hs : s.Runnable) (h : loopWhile k s = .next t) : t.Runnable :=
  loopWhile_keeps (fun _ _ _ _ => runnable_after_step) hs h

theorem memoryCanonical_of_loopWhile_next (hm : s.MemoryCanonical) (h : loopWhile k s = .next t) :
    t.MemoryCanonical :=
  loopWhile_keeps (fun _ _ hm _ => memoryCanonical_of_step hm) hm h

/-- A step overspends by at most 5, since it starts from a counter of at least 1 and debits at most 6. -/
theorem neg_five_le_cyc_of_loopWhile_next (hs : -5 ≤ s.cyc) (h : loopWhile k s = .next t) : -5 ≤ t.cyc := by
  refine loopWhile_keeps (P := fun s => -5 ≤ s.cyc) (fun s t _ hpos hstep => ?_) hs h
  obtain ⟨-, hupper⟩ := step_debit_bounds hstep
  omega

theorem loopWhile_ne_refused (hs : s.Runnable) (k : Nat) (r : Refusal) : loopWhile k s ≠ .refused r := by
  intro h
  obtain ⟨j, u, hrun, -, hstop⟩ := loopWhile_stopped h fun _ e => nomatch e
  exact step_ne_refused (runnable_of_loopWhile_next hs hrun) r hstop

/-! ### What a call of a runnable pair can do -/

/-- Everything `Exec` can do on a runnable pair: its loop ends by its own test, or meets a fault. -/
theorem runExec_cases (hs : s.Runnable) (n : Int) :
    (∃ t, runLoop (s.setCyc n) = .next t ∧ runExec n s = (.ok (n - t.cyc), t.setCyc 0)) ∨
    (∃ f, runLoop (s.setCyc n) = .fault f ∧ runExec n s = (.faulted f, (s.setCyc n).raise f)) := by
  have hready : (s.setCyc n).Runnable := hs
  cases h : runLoop (s.setCyc n) with
  | next t => exact .inl ⟨t, rfl, runExec_of_runLoop_next hs h⟩
  | fault f => exact .inr ⟨f, rfl, runExec_of_runLoop_fault hs h⟩
  | refused r => exact absurd h (loopWhile_ne_refused hready _ r)

/-- An unrunnable pair's call leaves it as it was (46_exec_loop.md R188). -/
theorem runExec_state_of_not_runnable (hs : ¬ s.Runnable) (n : Int) : (runExec n s).2 = s := by
  cases hr : s.ready with
  | false => rw [runExec_not_ready hr]
  | true =>
    obtain ⟨f, hf⟩ := Option.ne_none_iff_exists'.mp fun hnone => hs ⟨hr, hnone⟩
    exact runExec_state_of_latched hf n

theorem memoryCanonical_of_runExec (hm : s.MemoryCanonical) (n : Int) : (runExec n s).2.MemoryCanonical := by
  by_cases hs : s.Runnable
  · obtain ⟨t, hloop, h⟩ | ⟨f, -, h⟩ := runExec_cases hs n
    · rw [h]
      exact memoryCanonical_of_loopWhile_next (s := s.setCyc n) (t := t) hm hloop
    · rw [h]
      exact Memory.wf_ofCells _
  · rwa [runExec_state_of_not_runnable hs]

theorem State.setCyc_setCyc (s : State) (c n : Int) : (s.setCyc c).setCyc n = s.setCyc n := rfl

/-- A call sets the counter before anything reads it, so what an earlier call left there does not matter
(46_exec_loop.md R189). -/
theorem runExec_setCyc (hs : s.Runnable) (c n : Int) : runExec n (s.setCyc c) = runExec n s := by
  have hs' : (s.setCyc c).Runnable := hs
  obtain ⟨t, hloop, h⟩ | ⟨f, hloop, h⟩ := runExec_cases hs n
  · rw [← s.setCyc_setCyc c] at hloop
    rw [h, runExec_of_runLoop_next hs' hloop]
  · rw [← s.setCyc_setCyc c] at hloop
    rw [h, runExec_of_runLoop_fault hs' hloop, State.setCyc_setCyc]

/-- A call of budget 1 is one instruction: whatever it costs, it spends the counter (46_exec_loop.md R189). -/
theorem runExec_one {i : Instr} {rest : List Byte} (hs : s.Runnable) (hcode : decode s.code = .ok (i, rest))
    (h : exec i s = .next t) : runExec 1 s = (.ok (s.cyc - t.cyc), t.setCyc 0) := by
  obtain ⟨hdebit, -⟩ := costOf_bounds i s
  rw [← exec_debit h] at hdebit
  have hstep : step (s.setCyc 1) = .next (t.setCyc (1 - (s.cyc - t.cyc))) :=
    (step_of_decode (s := s.setCyc 1) hs hcode).trans (exec_setCyc h 1)
  have hspent : ¬ 0 < (t.setCyc (1 - (s.cyc - t.cyc))).cyc := by
    rw [State.setCyc_cyc]
    omega
  have hloop : runLoop (s.setCyc 1) = .next (t.setCyc (1 - (s.cyc - t.cyc))) :=
    (runLoop_next Int.one_pos hstep).trans (runLoop_spent hspent)
  rw [runExec_of_runLoop_next hs hloop, State.setCyc_cyc, State.setCyc_setCyc, Int.sub_sub_self]

end Sys2Proof.Machine

namespace Sys2Proof.Claims

open Sys2Proof.Machine

/-- Settles O40: an instruction writes below the bound, and so does a poke; what a fault leaves is canonical whatever the
free cells hold. -/
theorem hostOpsKeepMemoryCanonical : Obligations.HostOpsKeepMemoryCanonical := by
  intro op s hm
  cases op with
  | reset => exact Memory.wf_zeroed
  | poke a v =>
    obtain h | h := Nat.lt_or_ge a Config.cap
    · rw [hostOp_poke_in_bounds v h]
      exact Memory.wf_write v h hm
    · rwa [hostOp_poke_out_of_bounds v h]
  | peek a =>
    obtain h | h := Nat.lt_or_ge a Config.cap
    · rwa [hostOp_peek_in_bounds h]
    · rwa [hostOp_peek_out_of_bounds h]
  | writeReg r v =>
    obtain h | h := Nat.lt_or_ge v r.size
    · rwa [hostOp_writeReg_in_range h, State.MemoryCanonical, State.setRegName_mem]
    · rwa [hostOp_writeReg_out_of_range h]
  | readReg r => exact hm
  | writeFlag g v =>
    obtain h | h := Nat.lt_or_ge v 2
    · rwa [hostOp_writeFlag_in_range g h, State.MemoryCanonical, State.setFlag_mem]
    · rwa [hostOp_writeFlag_out_of_range g h]
  | readFlag g => exact hm
  | memInit => exact Memory.wf_zeroed
  | exec n => exact memoryCanonical_of_runExec hm n

/-- Settles O51: the loop ends with a counter that its test found spent and its last step overspent by at most 5. -/
theorem execCyclesUsedBounds : Obligations.ExecCyclesUsedBounds := by
  intro n s hn hs
  obtain ⟨t, hloop, h⟩ | ⟨f, -, h⟩ := runExec_cases hs n
  · have hstart : -5 ≤ (s.setCyc n).cyc := by
      rw [State.setCyc_cyc]
      omega
    have hupper := neg_five_le_cyc_of_loopWhile_next hstart hloop
    have hlower := cyc_nonpos_of_loopWhile_next le_rfl hloop
    have hready : t.Runnable := runnable_of_loopWhile_next (s := s.setCyc n) hs hloop
    rw [h]
    exact .inl ⟨_, rfl, by omega, by omega, hready⟩
  · rw [h]
    exact .inr ⟨f, rfl⟩

/-- Settles O53: the first step debits at least 2, which a counter of 1 does not outlast. -/
theorem execOneRunsOneInstruction : Obligations.ExecOneRunsOneInstruction := by
  intro i rest s t hs hcode h
  rw [← s.code_eq] at hcode
  rw [runExec_one hs hcode h]
  exact ⟨rfl, rfl⟩

/-- Settles O54: a call sets the counter before anything reads it, and a runnable pair's call is never refused, so that
nothing of the old counter is left. -/
theorem overspendIsNotCarriedOver : Obligations.OverspendIsNotCarriedOver :=
  fun n c _ hs => runExec_setCyc hs c n

/-- Settles O59: the fault is the answer of one step, before which whole steps completed; and a pair with that latch
answers from the latch alone. -/
theorem faultLeavesNothingToRelyOn : Obligations.FaultLeavesNothingToRelyOn := by
  intro n s f hs h
  obtain ⟨hloop, hleft⟩ := runExec_faulted hs h
  have hlatch : (runExec n s).2.fault = some f := by rw [hleft, State.raise_fault]
  have hready : (runExec n s).2.ready = true := by rw [hleft, State.raise_ready, State.setCyc_ready, hs.1]
  have hprecise := loopWhile_stopped hloop fun _ e => nomatch e
  refine ⟨hprecise, hlatch, hready, fun t hfault hr => ⟨?_, hostOp_reset t⟩⟩
  exact runExec_latched (hr.trans hready) (hfault.trans hlatch)

end Sys2Proof.Claims
end
